-- ==== Sys2Proof/Word.lean ====
section
/-! DEFINITION. The word types of PPBSEQ: a byte of the bus and a bus address. Every value of the block is
unsigned (R10). -/

namespace Sys2Proof

/-- One byte: bus data, a bank-select byte, a status byte. -/
abbrev Byte := BitVec 8

/-- A 16-bit bus address (R60). -/
abbrev Addr := BitVec 16

end Sys2Proof
end

