-- ==== Sys2Proof/Config.lean ====
section
/-! DEFINITION. The configuration record: the parameters the source fixes (R7), the OPEN parameters (R8); and the
two free values, the platform's configuration and the environment's answers. -/

namespace Sys2Proof

/-- The parameters the source fixes (R7, R337). The numbers are in `Fixed.source`. -/
structure Fixed where
  /-- `BANK_BYTES`: the size of one Bank, and of two half-banks. -/
  bankBytes : Nat
  /-- `HALF_BANK_BYTES`: the size of one half-bank of the scrambled dialect. -/
  halfBankBytes : Nat
  /-- `BANKS_PER_SECTOR`. -/
  banksPerSector : Nat
  /-- `SECTOR_BYTES`: 128 KiB, the erase and protection granularity. -/
  sectorBytes : Nat
  /-- `BANK_INDEX_BITS`: the width of a valid bank index. -/
  bankIndexBits : Nat
  /-- `HALFBANKS_PER_OUTBANK`. -/
  halfBanksPerOutbank : Nat
  /-- `MAX_ERRORS`: the error count that is fatal (R337). -/
  maxErrors : Nat
  /-- `ADDR_UNLOCK_A`. -/
  unlockA : Addr
  /-- `ADDR_UNLOCK_B`. -/
  unlockB : Addr
  /-- `DQ6`: the toggle bit of a status byte. -/
  dq6 : Nat
  /-- `DQ5`: the internal-timeout bit of a status byte. -/
  dq5 : Nat
  /-- `PPB_BIT`: 1 = erased (unprotected), 0 = protected. -/
  ppbBit : Nat
  /-- `CRC_POLY`: the reflected polynomial. -/
  crcPoly : BitVec 16
  /-- `CRC_INIT`. -/
  crcInit : BitVec 16
  /-- The follow-up pairs of the DQ5 double-check: a single one (R337, U18). -/
  followUpPairs : Nat
deriving DecidableEq, Repr

/-- The values of R7: "preserve the literal thresholds" (R337). -/
def Fixed.source : Fixed where
  bankBytes := 0x4000
  halfBankBytes := 0x2000
  banksPerSector := 8
  sectorBytes := 0x20000
  bankIndexBits := 11
  halfBanksPerOutbank := 16
  maxErrors := 3
  unlockA := 0x8AAA
  unlockB := 0x8555
  dq6 := 6
  dq5 := 5
  ppbBit := 0
  crcPoly := 0xA001
  crcInit := 0x0000
  followUpPairs := 1

namespace Config

/-- The number of byte indices of `IMG`: 25 bits (R64). -/
@[simp] abbrev imageBytes : Nat := 0x2000000
/-- The highest `PRG` with `PRG + 0x4000 <= 0x10000` (R62). -/
@[simp] abbrev prgMax : Nat := 0xC000

end Config

/-- The scrambled dialect's three functions (R8, R144, R149) as tables. A table indexed by just the outbank
bits a function may depend on is exactly a function that meets R144's constraint. -/
structure Scrambled where
  /-- `SCR_R0`, indexed by outbank bits {7, 6, 2, 1, 0}. -/
  r0 : Vector Byte 32
  /-- `SCR_R1`, indexed by outbank bits {5, 4}. -/
  r1 : Vector Byte 4
  /-- `SCR_HSEL`, indexed by `u` = `BANK mod 8`: two (address, data) pairs. -/
  hsel : Vector ((Addr × Byte) × (Addr × Byte)) 8
deriving DecidableEq, Repr, Inhabited

/-- The configuration record: the fixed parameters (R7) and the OPEN ones (R8). Constant from before the first
command (R323). -/
structure Config where
  /-- The fixed parameters: the type admits exactly the source's values (R337, U18; log 2). -/
  fixed : { p : Fixed // p = Fixed.source } := ⟨Fixed.source, rfl⟩
  /-- `REG_ADDR[0]`: where the bank-select byte r0 is written. -/
  reg0 : Addr
  /-- `REG_ADDR[1]`: where r1 is written. -/
  reg1 : Addr
  /-- `REG_ADDR[2]`: where r2 is written. -/
  reg2 : Addr
  /-- `REG_ADDR[3]`: where r3 is written. -/
  reg3 : Addr
  /-- `ST`: the status address of the PPB operations. -/
  st : Addr
  /-- `EX` where it is configured otherwise than equal to `ST`. -/
  ex : Option Addr
  /-- `SLO`: address of the sector low byte. -/
  slo : Addr
  /-- `SHI`: address of the sector high byte. -/
  shi : Addr
  /-- `PRG`: base of the program window; the type is the constraint `PRG + 0x4000 <= 0x10000` (R62). -/
  prg : Fin 0xC001
  /-- The scrambled dialect's functions; `none` where the configuration gives none (R323). -/
  scr : Option Scrambled
  /-- `T_POLL`: the sleep between pairs, a count of microseconds; the source says "on the order of 1 ms" (R7, log 2). -/
  tPoll : Nat
  /-- `T_SETTLE`: the settle delay, a count of microseconds (R8, log 2). -/
  tSettle : Nat
deriving DecidableEq, Repr, Inhabited

namespace Config

/-! ### The fixed parameters by name -/

/-- `BANK_BYTES`: the size of one Bank, and of two half-banks. -/
def bankBytes (c : Config) : Nat := c.fixed.val.bankBytes
/-- `HALF_BANK_BYTES`: the size of one half-bank of the scrambled dialect. -/
def halfBankBytes (c : Config) : Nat := c.fixed.val.halfBankBytes
/-- `BANKS_PER_SECTOR`. -/
def banksPerSector (c : Config) : Nat := c.fixed.val.banksPerSector
/-- `SECTOR_BYTES`: 128 KiB, the erase and protection granularity. -/
def sectorBytes (c : Config) : Nat := c.fixed.val.sectorBytes
/-- `BANK_INDEX_BITS`: the width of a valid bank index. -/
def bankIndexBits (c : Config) : Nat := c.fixed.val.bankIndexBits
/-- `HALFBANKS_PER_OUTBANK`. -/
def halfBanksPerOutbank (c : Config) : Nat := c.fixed.val.halfBanksPerOutbank
/-- `MAX_ERRORS`: the error count that is fatal (R337). -/
def maxErrors (c : Config) : Nat := c.fixed.val.maxErrors
/-- `ADDR_UNLOCK_A`. -/
def unlockA (c : Config) : Addr := c.fixed.val.unlockA
/-- `ADDR_UNLOCK_B`. -/
def unlockB (c : Config) : Addr := c.fixed.val.unlockB
/-- `DQ6`: the toggle bit of a status byte. -/
def dq6 (c : Config) : Nat := c.fixed.val.dq6
/-- `DQ5`: the internal-timeout bit of a status byte. -/
def dq5 (c : Config) : Nat := c.fixed.val.dq5
/-- `PPB_BIT`: 1 = erased (unprotected), 0 = protected. -/
def ppbBit (c : Config) : Nat := c.fixed.val.ppbBit
/-- `CRC_POLY`: the reflected polynomial. -/
def crcPoly (c : Config) : BitVec 16 := c.fixed.val.crcPoly
/-- `CRC_INIT`. -/
def crcInit (c : Config) : BitVec 16 := c.fixed.val.crcInit
/-- The follow-up pairs of the DQ5 double-check: a single one (R337, U18). -/
def followUpPairs (c : Config) : Nat := c.fixed.val.followUpPairs
/-- The largest legal `BANKCOUNT`: `2 ^ BANK_INDEX_BITS` (R45). -/
def maxBanks (c : Config) : Nat := 2 ^ c.bankIndexBits

/-! ### Their values, in every configuration -/

@[simp] theorem bankBytes_eq (c : Config) : c.bankBytes = 0x4000 := congrArg Fixed.bankBytes c.fixed.property
@[simp] theorem halfBankBytes_eq (c : Config) : c.halfBankBytes = 0x2000 := congrArg Fixed.halfBankBytes c.fixed.property
@[simp] theorem banksPerSector_eq (c : Config) : c.banksPerSector = 8 := congrArg Fixed.banksPerSector c.fixed.property
@[simp] theorem sectorBytes_eq (c : Config) : c.sectorBytes = 0x20000 := congrArg Fixed.sectorBytes c.fixed.property
@[simp] theorem bankIndexBits_eq (c : Config) : c.bankIndexBits = 11 := congrArg Fixed.bankIndexBits c.fixed.property
@[simp] theorem halfBanksPerOutbank_eq (c : Config) : c.halfBanksPerOutbank = 16 := congrArg Fixed.halfBanksPerOutbank c.fixed.property
@[simp] theorem maxErrors_eq (c : Config) : c.maxErrors = 3 := congrArg Fixed.maxErrors c.fixed.property
@[simp] theorem unlockA_eq (c : Config) : c.unlockA = 0x8AAA := congrArg Fixed.unlockA c.fixed.property
@[simp] theorem unlockB_eq (c : Config) : c.unlockB = 0x8555 := congrArg Fixed.unlockB c.fixed.property
@[simp] theorem dq6_eq (c : Config) : c.dq6 = 6 := congrArg Fixed.dq6 c.fixed.property
@[simp] theorem dq5_eq (c : Config) : c.dq5 = 5 := congrArg Fixed.dq5 c.fixed.property
@[simp] theorem ppbBit_eq (c : Config) : c.ppbBit = 0 := congrArg Fixed.ppbBit c.fixed.property
@[simp] theorem crcPoly_eq (c : Config) : c.crcPoly = 0xA001 := congrArg Fixed.crcPoly c.fixed.property
@[simp] theorem crcInit_eq (c : Config) : c.crcInit = 0x0000 := congrArg Fixed.crcInit c.fixed.property
@[simp] theorem followUpPairs_eq (c : Config) : c.followUpPairs = 1 := congrArg Fixed.followUpPairs c.fixed.property
@[simp] theorem maxBanks_eq (c : Config) : c.maxBanks = 2048 := by simp [maxBanks]

end Config

/-- What the environment does about the outstanding transaction in one step (R76, R128): it leaves it
unanswered, answers `fail`, or answers `ok` with 16 bits of which each request takes what it is due. -/
inductive Reply where
  | wait
  | fail
  | ok (rd : BitVec 16)
deriving DecidableEq, Repr, Inhabited

/-- FREE VALUE (log 1). The OPEN parameters of the platform the block is built into: nothing is known of them. -/
opaque Config.openParameters : Config

/-- The configuration of the platform: its OPEN parameters free, the fixed ones as in every configuration. -/
def Config.platform : Config :=
  { Config.openParameters with fixed := ⟨Fixed.source, rfl⟩ }

/-- FREE VALUE (log 3). The answers of the environment, numbered in the order they are drawn: an unconstrained
oracle (R76, U9). -/
opaque Config.oracle : Nat → Reply

end Sys2Proof
end

