-- ==== Sys2Proof/Syntax.lean ====
section
/-! DEFINITION. The syntax: one constructor of `Instr` per row of spec/opcode_table.json (command words, bus
requests, bus command cycles, pure functions, sub-sequences), and the names a cycle is told apart by (phase,
PPB operation, dialect). -/

namespace Sys2Proof

/-- `DIALECT` and `accessMode` (R23, R95): 0 = direct, 1 = scrambled. -/
inductive Dialect where
  | direct
  | scrambled
deriving DecidableEq, Repr

/-- `PPBOP` (R25): the PPB operation the shared PPB phases are executing. -/
inductive PpbOp where
  | none
  | eraseAll
  | writeOne
  | readOne
deriving DecidableEq, Repr

/-- `PH` (R30): the control state of the sequencer. Only these phases are ever held. -/
inductive Phase where
  | idle
  | prgCheck | prgReset | prgHead | prgSel0 | prgSel1 | prgSel2 | prgSel3 | prgErase | prgHs1 | prgHs2
  | prgPage | prgLock | prgNext | prgRetry | prgRreset
  | vfyReset | vfyHead | vfySel0 | vfySel1 | vfySel2 | vfySel3 | vfyHs1 | vfyHs2 | vfyCrc | vfyNext
  | ppbSel0 | ppbSel1 | ppbSel2 | ppbSel3 | ppbEnt1 | ppbEnt2 | ppbEnt3 | ppbCmd1 | ppbCmd2 | ppbSlo | ppbShi
  | pollRd1 | pollRd2 | pollSleep | pollRd3 | pollRd4 | pollSettle
  | ppbStat | ppbExit1 | ppbExit2 | ppbRet
deriving DecidableEq, Repr

/-- The data byte of `SEL0` (R97): in the direct dialect the pattern `01bb0bbb` with bank bits {10, 9} and
{5, 4, 3}; in the scrambled dialect a byte of `SCR_R0`. -/
inductive Sel0Data where
  | direct (b10_9 : BitVec 2) (b5_3 : BitVec 3)
  | scrambled (r0 : Byte)
deriving DecidableEq, Repr

/-- The data byte of `SEL1` (R97): in the direct dialect the pattern `100bbb00` with bank bit 6 and bank bits
{8, 7}; in the scrambled dialect a byte of `SCR_R1`. -/
inductive Sel1Data where
  | direct (b6 : BitVec 1) (b8_7 : BitVec 2)
  | scrambled (r1 : Byte)
deriving DecidableEq, Repr

/-- The data byte of `SEL3` (R97): in the direct dialect the pattern `0001bbb0` with bank bits {2, 1, 0}; in
the scrambled dialect 0x00. -/
inductive Sel3Data where
  | direct (b2_0 : BitVec 3)
  | scrambled
deriving DecidableEq, Repr

/-- The instructions: every row of the opcode table. A command word keeps all its fields, those its opcode
ignores too (R90, log 12). A bus request keeps the fields that are not fixed by its kind (R96, log 13). -/
inductive Instr where
  -- CMD16: command words (R90, R92)
  | nop (dialect : Dialect) (verify : Bool) (sector : BitVec 8)
  | ppbEraseAll (dialect : Dialect) (verify : Bool) (sector : BitVec 8)
  | ppbWrite (dialect : Dialect) (verify : Bool) (sector : BitVec 8)
  | ppbRead (dialect : Dialect) (verify : Bool) (sector : BitVec 8)
  | program (dialect : Dialect) (verify : Bool) (sector : BitVec 8)
  | illegal5 (dialect : Dialect) (verify : Bool) (sector : BitVec 8)
  | illegal6 (dialect : Dialect) (verify : Bool) (sector : BitVec 8)
  | illegal7 (dialect : Dialect) (verify : Bool) (sector : BitVec 8)
  | illegalRsv (opc : BitVec 3) (dialect : Dialect) (verify : Bool) (rsv : BitVec 3) (sector : BitVec 8)
  -- BUSREQ: bus requests (R95, R96)
  | rst
  | w (addr : Addr) (data : Byte)
  | r (addr : Addr)
  | erase (mode : Dialect)
  | pgm (addr : Addr) (mode : Dialect)
  | crc (addr : Addr)
  -- CYC24: bus command cycles (R97)
  | ent1
  | ent2
  | ent3
  | ppbe1 (addr : Addr)
  | ppbe2 (addr : Addr)
  | ppbw1 (addr : Addr)
  | ppbw2 (addr : Addr)
  | ppbr1 (addr : Addr)
  | seclo (addr : Addr) (sect : BitVec 8)
  | sechi (addr : Addr)
  | exit1 (addr : Addr)
  | exit2 (addr : Addr)
  | sel0 (addr : Addr) (data : Sel0Data)
  | sel1 (addr : Addr) (data : Sel1Data)
  | sel2 (addr : Addr)
  | sel3 (addr : Addr) (data : Sel3Data)
  | hs1 (addr : Addr) (data : Byte)
  | hs2 (addr : Addr) (data : Byte)
  -- FUNCTION: pure functions (R140, R250)
  | translate (bankIndex : BitVec 11) (dialect : Dialect)
  | crc16 (bytes : List Byte)
  -- SUBSEQUENCE: named routines (R230, R253)
  | poll
  | verifyPass
deriving DecidableEq, Repr

end Sys2Proof
end

