-- ==== Sys2Proof/WellFormed.lean ====
section
/-! DEFINITION. Which terms of `Instr` are instructions, and in which context (phase, PPB operation, dialect) a
bus command cycle stands for itself (R97: "a trace alone does not tell them apart; the phase does"). -/

namespace Sys2Proof

/-- The checks a term passes to be an instruction: a word of the reserved group has a reserved bit set (R94);
a page program and a CRC stay inside the 16-bit bus space (R62). -/
def Instr.wf : Instr → Bool
  | .illegalRsv _ _ _ rsv _ => rsv != 0
  | .pgm a _ => a.toNat ≤ Config.prgMax
  | .crc a => a.toNat ≤ Config.prgMax
  | .nop .. | .ppbEraseAll .. | .ppbWrite .. | .ppbRead .. | .program ..
  | .illegal5 .. | .illegal6 .. | .illegal7 ..
  | .rst | .w .. | .r .. | .erase ..
  | .ent1 | .ent2 | .ent3 | .ppbe1 .. | .ppbe2 .. | .ppbw1 .. | .ppbw2 .. | .ppbr1 ..
  | .seclo .. | .sechi .. | .exit1 .. | .exit2 ..
  | .sel0 .. | .sel1 .. | .sel2 .. | .sel3 .. | .hs1 .. | .hs2 ..
  | .translate .. | .crc16 .. | .poll | .verifyPass => true

/-- What tells bus command cycles of one pattern apart (R97). -/
structure CycleContext where
  ph : Phase
  ppbop : PpbOp
  dialect : Dialect
deriving DecidableEq, Repr

/-- The phases in which `SEL0` to `SEL3` are emitted (R97). -/
def Phase.selIndex : Phase → Option (Fin 4)
  | .prgSel0 | .vfySel0 | .ppbSel0 => some 0
  | .prgSel1 | .vfySel1 | .ppbSel1 => some 1
  | .prgSel2 | .vfySel2 | .ppbSel2 => some 2
  | .prgSel3 | .vfySel3 | .ppbSel3 => some 3
  | _ => none

/-- The dialect a `SEL0` data byte belongs to. -/
def Sel0Data.dialect : Sel0Data → Dialect
  | .direct .. => .direct
  | .scrambled _ => .scrambled

/-- The dialect a `SEL1` data byte belongs to. -/
def Sel1Data.dialect : Sel1Data → Dialect
  | .direct .. => .direct
  | .scrambled _ => .scrambled

/-- The dialect a `SEL3` data byte belongs to. -/
def Sel3Data.dialect : Sel3Data → Dialect
  | .direct _ => .direct
  | .scrambled => .scrambled

/-- `i` is a bus command cycle the block emits in the context `c` (the "emitted in phase" column of R97). -/
def Instr.cycleIn (c : CycleContext) : Instr → Bool
  | .ent1 => c.ph = .ppbEnt1
  | .ent2 => c.ph = .ppbEnt2
  | .ent3 => c.ph = .ppbEnt3
  | .ppbe1 _ => c.ph = .ppbCmd1 ∧ c.ppbop = .eraseAll
  | .ppbe2 _ => c.ph = .ppbCmd2 ∧ c.ppbop = .eraseAll
  | .ppbw1 _ => c.ph = .ppbCmd1 ∧ c.ppbop = .writeOne
  | .ppbw2 _ => c.ph = .ppbCmd2 ∧ c.ppbop = .writeOne
  | .ppbr1 _ => c.ph = .ppbCmd1 ∧ c.ppbop = .readOne
  | .seclo _ _ => c.ph = .ppbSlo
  | .sechi _ => c.ph = .ppbShi
  | .exit1 _ => c.ph = .ppbExit1
  | .exit2 _ => c.ph = .ppbExit2
  | .sel0 _ d => c.ph.selIndex = some 0 ∧ d.dialect = c.dialect
  | .sel1 _ d => c.ph.selIndex = some 1 ∧ d.dialect = c.dialect
  | .sel2 _ => c.ph.selIndex = some 2
  | .sel3 _ d => c.ph.selIndex = some 3 ∧ d.dialect = c.dialect
  | .hs1 _ _ => (c.ph = .prgHs1 ∨ c.ph = .vfyHs1) ∧ c.dialect = .scrambled
  | .hs2 _ _ => (c.ph = .prgHs2 ∨ c.ph = .vfyHs2) ∧ c.dialect = .scrambled
  | .nop .. | .ppbEraseAll .. | .ppbWrite .. | .ppbRead .. | .program ..
  | .illegal5 .. | .illegal6 .. | .illegal7 .. | .illegalRsv ..
  | .rst | .w .. | .r .. | .erase .. | .pgm .. | .crc ..
  | .translate .. | .crc16 .. | .poll | .verifyPass => false

end Sys2Proof
end

