-- ==== Sys2Proof/Decode.lean ====
section
/-! DEFINITION. The decoder, total on every word of the three formats and rejecting by name (R90 to R97), and
after it the encoder, written from the same tables of the spec. A pure function and a sub-sequence have no
encoding ("none" in the opcode table). -/

namespace Sys2Proof

/-- An encoded thing (the formats of `30_encoding.md`). `busreq` is the model's packed layout of the record of
R95: KIND 2:0, zeros 7:3, ADDR 23:8, DATA 31:24, MODE 32, zeros 39:33 (log 13). -/
inductive Code where
  | cmd16 (word : BitVec 16)
  | busreq (word : BitVec 40)
  | cyc24 (word : BitVec 24)
deriving DecidableEq, Repr

/-- Why the decoder rejects a word. -/
inductive DecodeError where
  /-- `KIND` = 0: no request outstanding (R96). -/
  | noRequest
  /-- `KIND` = 7: reserved, never emitted (R96). -/
  | reservedKind
  /-- A field that the request's kind does not use is not absent (R95). -/
  | fieldNotOfKind
  /-- The program window would run past the top of the bus space (R62). -/
  | windowOverrun
  /-- The pattern is not the cycle this phase emits (R97). -/
  | notThisCycle
deriving DecidableEq, Repr

/-! ### Bits of the named alternatives -/

/-- The `DIALECT` / `MODE` bit (R90, R95). -/
def Dialect.bit : Dialect → BitVec 1
  | .direct => 0
  | .scrambled => 1

/-- The dialect a bit names. -/
def Dialect.ofBit (b : BitVec 1) : Dialect :=
  if b = 0 then .direct else .scrambled

/-- The direct dialect's r0 pattern `01bb0bbb`, or the scrambled byte (R97). -/
def Sel0Data.byte : Sel0Data → Byte
  | .direct b10_9 b5_3 => 0b01#2 ++ b10_9 ++ 0b0#1 ++ b5_3
  | .scrambled r0 => r0

/-- The direct dialect's r1 pattern `100bbb00`, or the scrambled byte (R97). -/
def Sel1Data.byte : Sel1Data → Byte
  | .direct b6 b8_7 => 0b100#3 ++ b6 ++ b8_7 ++ 0b00#2
  | .scrambled r1 => r1

/-- The direct dialect's r3 pattern `0001bbb0`, or the scrambled dialect's 0x00 (R97). -/
def Sel3Data.byte : Sel3Data → Byte
  | .direct b2_0 => 0b0001#4 ++ b2_0 ++ 0b0#1
  | .scrambled => 0x00

/-- Reading a `SEL0` data byte; `none` where a direct byte does not fit the pattern. -/
def Sel0Data.ofByte (d : Dialect) (x : Byte) : Option Sel0Data :=
  match d with
  | .direct =>
    if x.extractLsb' 6 2 = 0b01#2 ∧ x.extractLsb' 3 1 = 0b0#1 then
      some (.direct (x.extractLsb' 4 2) (x.extractLsb' 0 3))
    else none
  | .scrambled => some (.scrambled x)

/-- Reading a `SEL1` data byte; `none` where a direct byte does not fit the pattern. -/
def Sel1Data.ofByte (d : Dialect) (x : Byte) : Option Sel1Data :=
  match d with
  | .direct =>
    if x.extractLsb' 5 3 = 0b100#3 ∧ x.extractLsb' 0 2 = 0b00#2 then
      some (.direct (x.extractLsb' 4 1) (x.extractLsb' 2 2))
    else none
  | .scrambled => some (.scrambled x)

/-- Reading a `SEL3` data byte; `none` where the byte does not fit the dialect's pattern. -/
def Sel3Data.ofByte (d : Dialect) (x : Byte) : Option Sel3Data :=
  match d with
  | .direct =>
    if x.extractLsb' 4 4 = 0b0001#4 ∧ x.extractLsb' 0 1 = 0b0#1 then some (.direct (x.extractLsb' 1 3))
    else none
  | .scrambled => if x = 0 then some .scrambled else none

/-! ### The decoder -/

/-- The command word (R90, R92, R94). Every 16-bit word is some row; a set reserved bit takes priority. -/
def decodeCommand (word : BitVec 16) : Instr :=
  let opc := word.extractLsb' 0 3
  let d := Dialect.ofBit (word.extractLsb' 3 1)
  let v := word.getLsbD 4
  let rsv := word.extractLsb' 5 3
  let sec := word.extractLsb' 8 8
  if rsv ≠ 0 then .illegalRsv opc d v rsv sec
  else match opc.toNat with
    | 0 => .nop d v sec
    | 1 => .ppbEraseAll d v sec
    | 2 => .ppbWrite d v sec
    | 3 => .ppbRead d v sec
    | 4 => .program d v sec
    | 5 => .illegal5 d v sec
    | 6 => .illegal6 d v sec
    | _ => .illegal7 d v sec

/-- The bus request (R95, R96): the fields of its kind, the others absent. -/
def decodeRequest (word : BitVec 40) : Except DecodeError Instr :=
  let kind := word.extractLsb' 0 3
  let addr := word.extractLsb' 8 16
  let data := word.extractLsb' 24 8
  let mode := word.extractLsb' 32 1
  if word.extractLsb' 3 5 ≠ 0 ∨ word.extractLsb' 33 7 ≠ 0 then .error .fieldNotOfKind
  else match kind.toNat with
    | 0 => .error .noRequest
    | 1 => if addr = 0 ∧ data = 0 ∧ mode = 0 then .ok .rst else .error .fieldNotOfKind
    | 2 => if mode = 0 then .ok (.w addr data) else .error .fieldNotOfKind
    | 3 => if data = 0 ∧ mode = 0 then .ok (.r addr) else .error .fieldNotOfKind
    | 4 => if addr = 0 ∧ data = 0 then .ok (.erase (Dialect.ofBit mode)) else .error .fieldNotOfKind
    | 5 =>
      if data ≠ 0 then .error .fieldNotOfKind
      else if addr.toNat ≤ Config.prgMax then .ok (.pgm addr (Dialect.ofBit mode))
      else .error .windowOverrun
    | 6 =>
      if data ≠ 0 ∨ mode ≠ 0 then .error .fieldNotOfKind
      else if addr.toNat ≤ Config.prgMax then .ok (.crc addr)
      else .error .windowOverrun
    | _ => .error .reservedKind

/-- A cycle with a fixed data byte. -/
def decodeFixedData (word : BitVec 24) (data : Byte) (i : Addr → Instr) : Except DecodeError Instr :=
  if word.extractLsb' 0 8 = data then .ok (i (word.extractLsb' 8 16)) else .error .notThisCycle

/-- A cycle with every bit fixed. -/
def decodeFixedCycle (word cycle : BitVec 24) (i : Instr) : Except DecodeError Instr :=
  if word = cycle then .ok i else .error .notThisCycle

/-- A cycle whose data byte is read by the dialect. -/
def decodeSelect (i : Option Instr) : Except DecodeError Instr :=
  match i with
  | some i => .ok i
  | none => .error .notThisCycle

/-- The bus command cycle emitted in the context `c` (R97). -/
def decodeCycle (c : CycleContext) (word : BitVec 24) : Except DecodeError Instr :=
  let addr := word.extractLsb' 8 16
  let data := word.extractLsb' 0 8
  match c.ph with
  | .ppbEnt1 => decodeFixedCycle word 0x8AAAAA .ent1
  | .ppbEnt2 => decodeFixedCycle word 0x855555 .ent2
  | .ppbEnt3 => decodeFixedCycle word 0x8AAAC0 .ent3
  | .ppbCmd1 =>
    match c.ppbop with
    | .eraseAll => decodeFixedData word 0x80 .ppbe1
    | .writeOne => decodeFixedData word 0xA0 .ppbw1
    | .readOne => decodeFixedData word 0xC0 .ppbr1
    | .none => .error .notThisCycle
  | .ppbCmd2 =>
    match c.ppbop with
    | .eraseAll => decodeFixedData word 0x30 .ppbe2
    | .writeOne => decodeFixedData word 0x00 .ppbw2
    | .readOne | .none => .error .notThisCycle
  | .ppbSlo => .ok (.seclo addr data)
  | .ppbShi => decodeFixedData word 0x00 .sechi
  | .ppbExit1 => decodeFixedData word 0x90 .exit1
  | .ppbExit2 => decodeFixedData word 0x00 .exit2
  | .prgSel0 | .vfySel0 | .ppbSel0 => decodeSelect ((Sel0Data.ofByte c.dialect data).map (.sel0 addr))
  | .prgSel1 | .vfySel1 | .ppbSel1 => decodeSelect ((Sel1Data.ofByte c.dialect data).map (.sel1 addr))
  | .prgSel2 | .vfySel2 | .ppbSel2 => decodeFixedData word 0x00 .sel2
  | .prgSel3 | .vfySel3 | .ppbSel3 => decodeSelect ((Sel3Data.ofByte c.dialect data).map (.sel3 addr))
  | .prgHs1 | .vfyHs1 =>
    match c.dialect with
    | .scrambled => .ok (.hs1 addr data)
    | .direct => .error .notThisCycle
  | .prgHs2 | .vfyHs2 =>
    match c.dialect with
    | .scrambled => .ok (.hs2 addr data)
    | .direct => .error .notThisCycle
  | _ => .error .notThisCycle

/-- The decoder: total, given the context that tells cycles of one pattern apart. -/
def decode (c : CycleContext) : Code → Except DecodeError Instr
  | .cmd16 word => .ok (decodeCommand word)
  | .busreq word => decodeRequest word
  | .cyc24 word => decodeCycle c word

/-! ### The encoder -/

/-- A command word from its fields (R90): `SECTOR` 15:8, reserved 7:5, `VERIFY` 4, `DIALECT` 3, `OPC` 2:0. -/
def commandWord (opc : BitVec 3) (d : Dialect) (v : Bool) (rsv : BitVec 3) (sec : BitVec 8) : BitVec 16 :=
  sec ++ rsv ++ BitVec.ofBool v ++ d.bit ++ opc

/-- A packed bus request from its fields (R95, R96, log 13). -/
def requestWord (kind : BitVec 3) (addr : Addr) (data : Byte) (mode : BitVec 1) : BitVec 40 :=
  0#7 ++ mode ++ data ++ addr ++ 0#5 ++ kind

/-- A bus command cycle `{ADDR, DATA}` (R97). -/
def cycleWord (addr : Addr) (data : Byte) : BitVec 24 :=
  addr ++ data

/-- The `W` request a bus command cycle is: its address and data byte (R97). `none` for the other rows. -/
def Instr.cycle : Instr → Option (Addr × Byte)
  | .ent1 => some (0x8AAA, 0xAA)
  | .ent2 => some (0x8555, 0x55)
  | .ent3 => some (0x8AAA, 0xC0)
  | .ppbe1 a => some (a, 0x80)
  | .ppbe2 a => some (a, 0x30)
  | .ppbw1 a => some (a, 0xA0)
  | .ppbw2 a => some (a, 0x00)
  | .ppbr1 a => some (a, 0xC0)
  | .seclo a s => some (a, s)
  | .sechi a => some (a, 0x00)
  | .exit1 a => some (a, 0x90)
  | .exit2 a => some (a, 0x00)
  | .sel0 a d => some (a, d.byte)
  | .sel1 a d => some (a, d.byte)
  | .sel2 a => some (a, 0x00)
  | .sel3 a d => some (a, d.byte)
  | .hs1 a d => some (a, d)
  | .hs2 a d => some (a, d)
  | .nop .. | .ppbEraseAll .. | .ppbWrite .. | .ppbRead .. | .program ..
  | .illegal5 .. | .illegal6 .. | .illegal7 .. | .illegalRsv ..
  | .rst | .w .. | .r .. | .erase .. | .pgm .. | .crc ..
  | .translate .. | .crc16 .. | .poll | .verifyPass => none

/-- The encoder: `none` for the rows that have no encoding (pure functions and sub-sequences). -/
def encode (i : Instr) : Option Code :=
  match i with
  | .nop d v s => some (.cmd16 (commandWord 0 d v 0 s))
  | .ppbEraseAll d v s => some (.cmd16 (commandWord 1 d v 0 s))
  | .ppbWrite d v s => some (.cmd16 (commandWord 2 d v 0 s))
  | .ppbRead d v s => some (.cmd16 (commandWord 3 d v 0 s))
  | .program d v s => some (.cmd16 (commandWord 4 d v 0 s))
  | .illegal5 d v s => some (.cmd16 (commandWord 5 d v 0 s))
  | .illegal6 d v s => some (.cmd16 (commandWord 6 d v 0 s))
  | .illegal7 d v s => some (.cmd16 (commandWord 7 d v 0 s))
  | .illegalRsv o d v r s => some (.cmd16 (commandWord o d v r s))
  | .rst => some (.busreq (requestWord 1 0 0 0))
  | .w a x => some (.busreq (requestWord 2 a x 0))
  | .r a => some (.busreq (requestWord 3 a 0 0))
  | .erase m => some (.busreq (requestWord 4 0 0 m.bit))
  | .pgm a m => some (.busreq (requestWord 5 a 0 m.bit))
  | .crc a => some (.busreq (requestWord 6 a 0 0))
  | .ent1 | .ent2 | .ent3 | .ppbe1 _ | .ppbe2 _ | .ppbw1 _ | .ppbw2 _ | .ppbr1 _
  | .seclo .. | .sechi _ | .exit1 _ | .exit2 _
  | .sel0 .. | .sel1 .. | .sel2 _ | .sel3 .. | .hs1 .. | .hs2 .. =>
    i.cycle.map fun p => .cyc24 (cycleWord p.1 p.2)
  | .translate .. | .crc16 .. | .poll | .verifyPass => none

/-! ### One word of the opcode table -/

/-- A 24-bit pattern read with no context: the first row that fits, rows with more fixed bits first, then in
the table's order. Rows of one pattern (`PPBW2`, `SECHI`, `EXIT2`, `SEL2` at data 0x00; `SEL1` where it equals
`PPBE1`, `PPBW1` or `EXIT1`) need the phase (R97, log 14). -/
def decodeCycleBare (word : BitVec 24) : Instr :=
  let addr := word.extractLsb' 8 16
  let data := word.extractLsb' 0 8
  if word = 0x8AAAAA then .ent1
  else if word = 0x855555 then .ent2
  else if word = 0x8AAAC0 then .ent3
  else if data = 0x80 then .ppbe1 addr
  else if data = 0x30 then .ppbe2 addr
  else if data = 0xA0 then .ppbw1 addr
  else if data = 0x00 then .ppbw2 addr
  else if data = 0xC0 then .ppbr1 addr
  else if data = 0x90 then .exit1 addr
  else match Sel1Data.ofByte .direct data, Sel3Data.ofByte .direct data, Sel0Data.ofByte .direct data with
    | some d, _, _ => .sel1 addr d
    | none, some d, _ => .sel3 addr d
    | none, none, some d => .sel0 addr d
    | none, none, none => .seclo addr data

/-- A word of the opcode table, its bits numbered as the table numbers them: 24 bits are a cycle, 16 bits a
command word. In one byte, `KIND` 1 to 6 is a bus request with its other fields zero; any other byte is the
low byte of a command word with `SECTOR` 0 (log 14). -/
def decodeTableWord (nbits w : Nat) : Option Instr :=
  if nbits = 24 then some (decodeCycleBare (BitVec.ofNat 24 w))
  else if nbits = 16 then some (decodeCommand (BitVec.ofNat 16 w))
  else if nbits ≤ 8 then
    if 1 ≤ w ∧ w ≤ 6 then (decodeRequest (BitVec.ofNat 40 w)).toOption
    else some (decodeCommand (BitVec.ofNat 16 w))
  else none

end Sys2Proof
end

