-- ==== Sys2Proof/Machine/State.lean ====
section
/-! DEFINITION. The state of PPBSEQ as plain data, everything the spec gives the machine (R20), with the
model's own fields after it; the reasons a step stops; the state after reset (R41). -/

namespace Sys2Proof.Machine

/-- `OP` (R23): the opcode of the command in execution; `none` is the code 0 after reset. -/
inductive Op where
  | none
  | eraseAll
  | write
  | read
  | program
deriving DecidableEq, Repr

/-- `RESULT` (R29, R270). -/
inductive Result where
  | ok
  | capacityExceeded
  | busOperationFailed
  | ppbEraseFailed
  | ppbWriteFailed
  | ppbTimeout
  | verificationMismatch
  | illegalCommand
deriving DecidableEq, Repr

/-- A bus request as the record the block sends (R95, R96). -/
inductive BusReq where
  | reset
  | write (addr : Addr) (data : Byte)
  | read (addr : Addr) (len : BitVec 16)
  | eraseSector (mode : Dialect)
  | programPage (addr : Addr) (data : List Byte) (mode : Dialect) (isPrg : Bool)
  | readCrc16 (addr : Addr) (len : BitVec 16)
deriving DecidableEq, Repr

/-- How a transaction ended: `ok` with the data its kind is due, `fail` (R95), or abandoned by a hardware
reset before its answer (R311). -/
inductive Answer where
  | ok
  | okByte (b : Byte)
  | okCrc (c : BitVec 16)
  | fail
  | abandoned
deriving DecidableEq, Repr

/-- One ended bus transaction of the history (R295). -/
structure Txn where
  req : BusReq
  ans : Answer
deriving DecidableEq, Repr

/-- A progress event (R292). -/
inductive Event where
  | bank (bank bankcount : BitVec 12)
  | erase (sector : BitVec 8)
  | verify (bank bankcount : BitVec 12)
deriving DecidableEq, Repr

/-- The four bank-select bytes `translate` returns (R140). -/
structure SelectRegs where
  r0 : Byte
  r1 : Byte
  r2 : Byte
  r3 : Byte
deriving DecidableEq, Repr

/-- The value of the last pure function run as a row of the table (log 16). -/
inductive Probe where
  | none
  | regs (r : SelectRegs)
  | crc (c : BitVec 16)
deriving DecidableEq, Repr

/-- One operation of the host (R42, R49, R64, R310), or a step in which it does nothing (log 6). -/
inductive HostOp where
  | write (reg : Nat) (value : BitVec 256)
  | read (reg : Nat)
  | writeImage (index : BitVec 25) (byte : Byte)
  | hardwareReset
  | pass
deriving DecidableEq, Repr

/-- Why the machine stops with a fault. -/
inductive Fault where
  /-- Raised by the meaning of a bus request, a bus command cycle, `POLL` or `VERIFY.PASS` asked for in a phase
  that does not issue it, or with operands that phase does not issue (R127, R61). Safe: no step from a good
  state raises it. -/
  | notIssuedInThisPhase
  /-- Raised by a step in a PPB phase whose `PPBOP` names no transaction there (U16: unreachable, "a model may
  leave them without a step"). Safe: no step from a good state raises it. -/
  | phaseWithoutTransaction
deriving DecidableEq, Repr

/-- Why a step is refused. -/
inductive Refusal where
  /-- An instruction with no meaning yet: raised by `exec` alone. Safe. -/
  | notModelled (mnemonic : String)
  /-- Raised by the acceptance of a command in the scrambled dialect, by `translate`, and by a step, where the
  configuration has no `SCR_R0`, `SCR_R1`, `SCR_HSEL` (R323, U3). Safe. -/
  | scrambledNotConfigured
  /-- Raised by `PGM` and `CRC` where a byte of `slice(BANK)` has not been written (R321, U12). Safe. -/
  | imageByteUnwritten
deriving DecidableEq, Repr

structure State where
  /-- The configuration: constant, not state of the block (R20, R323, log 1). -/
  cfg : Config
  /-- `PH` (R30). -/
  ph : Phase
  /-- `BUSY` (R32). -/
  busy : Bool
  /-- `DONE` (R32). -/
  done : Bool
  /-- `RESULT` (R29). -/
  result : Result
  /-- `ERRCNT` (R22). -/
  errcnt : BitVec 2
  /-- `BANK` (R21). -/
  bank : BitVec 12
  /-- `OP` (R23). -/
  op : Op
  /-- `DIALECT` (R23). -/
  dialect : Dialect
  /-- `VERIFY` (R23). -/
  verify : Bool
  /-- `SECT` (R24). -/
  sect : BitVec 8
  /-- `PPBOP` (R25). -/
  ppbop : PpbOp
  /-- `S1` (R26). -/
  s1 : Byte
  /-- `S2` (R26). -/
  s2 : Byte
  /-- `SV` (R26). -/
  sv : Byte
  /-- `RDATA` (R27). -/
  rdata : Byte
  /-- `MM_BANK` (R28). -/
  mmBank : BitVec 11
  /-- `MM_EXP` (R28). -/
  mmExp : BitVec 16
  /-- `MM_ACT` (R28). -/
  mmAct : BitVec 16
  /-- `BANKCOUNT` (R45). -/
  bankcount : BitVec 12
  /-- `CAPACITY` (R46). -/
  capacity : BitVec 32
  /-- `BADMAP` (R47). -/
  badmap : BitVec 256
  /-- `IMG` (R64): (index, byte) pairs, indices rising; an unlisted byte has no value (R321, log 8). -/
  img : List Host.Cell
  /-- The outstanding bus transaction, at most one (R52, R70). -/
  outstanding : Option BusReq
  /-- Model's own: the host operations still to come, oldest first (log 6). -/
  inbox : List HostOp
  /-- Model's own: the value the last host register read returned (log 6). -/
  hostRd : BitVec 256
  /-- Model's own: the environment's next answers, oldest first (log 3). -/
  script : List Reply
  /-- Model's own: how many answers were drawn past the script's end (log 3). -/
  oracleTick : Nat
  /-- Model's own: the ended bus transactions, newest first (R295, log 5). -/
  trace : List Txn
  /-- Model's own: the progress events, newest first (R292, log 5). -/
  events : List Event
  /-- Model's own: the value of the last pure function (log 16). -/
  probe : Probe
deriving DecidableEq, Repr

/-- The outcome of a step. -/
abbrev Out := Host.Outcome State Fault Refusal

/-- Hardware reset (R41, R310): `PH` = `IDLE`, every flag and register 0, no byte of `IMG` written, no
transaction outstanding. The model's own fields: log 22. -/
def State.reset : State where
  cfg := Config.platform
  ph := .idle
  busy := false
  done := false
  result := .ok
  errcnt := 0
  bank := 0
  op := .none
  dialect := .direct
  verify := false
  sect := 0
  ppbop := .none
  s1 := 0
  s2 := 0
  sv := 0
  rdata := 0
  mmBank := 0
  mmExp := 0
  mmAct := 0
  bankcount := 0
  capacity := 0
  badmap := 0
  img := []
  outstanding := none
  inbox := []
  hostRd := 0
  script := []
  oracleTick := 0
  trace := []
  events := []
  probe := .none

end Sys2Proof.Machine
end

