-- ==== Sys2Proof/Machine/Flags.lean ====
section
/-! DEFINITION. The flags and the decisions taken on register values (R32, R33, R36): the codes of the named
registers, the `STATUS` word, the bank and sector conditions, the decisions of the poll and of the checks. -/

namespace Sys2Proof

/-- `PHASE` code of a phase (R30): bits 7:5 the routine, bits 4:0 the step. -/
def Phase.code : Phase → BitVec 8
  | .idle => 0x00
  | .prgCheck => 0x20 | .prgReset => 0x21 | .prgHead => 0x22
  | .prgSel0 => 0x23 | .prgSel1 => 0x24 | .prgSel2 => 0x25 | .prgSel3 => 0x26
  | .prgErase => 0x27 | .prgHs1 => 0x28 | .prgHs2 => 0x29 | .prgPage => 0x2A
  | .prgLock => 0x2B | .prgNext => 0x2C | .prgRetry => 0x2D | .prgRreset => 0x2E
  | .vfyReset => 0x40 | .vfyHead => 0x41
  | .vfySel0 => 0x42 | .vfySel1 => 0x43 | .vfySel2 => 0x44 | .vfySel3 => 0x45
  | .vfyHs1 => 0x46 | .vfyHs2 => 0x47 | .vfyCrc => 0x48 | .vfyNext => 0x49
  | .ppbSel0 => 0x60 | .ppbSel1 => 0x61 | .ppbSel2 => 0x62 | .ppbSel3 => 0x63
  | .ppbEnt1 => 0x64 | .ppbEnt2 => 0x65 | .ppbEnt3 => 0x66
  | .ppbCmd1 => 0x67 | .ppbCmd2 => 0x68 | .ppbSlo => 0x69 | .ppbShi => 0x6A
  | .pollRd1 => 0x6B | .pollRd2 => 0x6C | .pollSleep => 0x6D | .pollRd3 => 0x6E | .pollRd4 => 0x6F
  | .pollSettle => 0x70 | .ppbStat => 0x71 | .ppbExit1 => 0x72 | .ppbExit2 => 0x73 | .ppbRet => 0x74

/-- `PH[7:5]` (R30): 0 = idle, 1 = program, 2 = verify, 3 = PPB and poll. -/
def Phase.routine (ph : Phase) : BitVec 3 :=
  ph.code.extractLsb' 5 3

/-- `PPBOP` code (R25). -/
def PpbOp.code : PpbOp → BitVec 2
  | .none => 0
  | .eraseAll => 1
  | .writeOne => 2
  | .readOne => 3

namespace Machine

/-- `RESULT` code (R270). -/
def Result.code : Result → BitVec 3
  | .ok => 0
  | .capacityExceeded => 1
  | .busOperationFailed => 2
  | .ppbEraseFailed => 3
  | .ppbWriteFailed => 4
  | .ppbTimeout => 5
  | .verificationMismatch => 6
  | .illegalCommand => 7

/-- `OP` code: the opcode `w[2:0]` that was latched (R23, R92). -/
def Op.code : Op → BitVec 3
  | .none => 0
  | .eraseAll => 1
  | .write => 2
  | .read => 3
  | .program => 4

/-- The PPB operation of a standalone PPB command (R203). -/
def Op.ppbOp : Op → PpbOp
  | .eraseAll => .eraseAll
  | .write => .writeOne
  | .read => .readOne
  | .none | .program => .none

/-- `STATUS` (R44): bit 0 `BUSY`, bit 1 `DONE`, bits 4:2 `RESULT`, bits 6:5 `ERRCNT`, bits 15:7 zero. -/
def State.status (s : State) : BitVec 16 :=
  0#9 ++ s.errcnt ++ s.result.code ++ BitVec.ofBool s.done ++ BitVec.ofBool s.busy

/-! ### Bank and sector conditions -/

/-- The sector index of a bank: `BANK / 8`, 8 bits (R24, R173). -/
def sectorOf (c : Config) (bank : BitVec 12) : BitVec 8 :=
  BitVec.ofNat 8 (bank.toNat / c.banksPerSector)

/-- The position of a bank in its sector: `BANK mod 8` (R149, R167). -/
def unitOf (c : Config) (bank : BitVec 12) : BitVec 3 :=
  BitVec.ofNat 3 (bank.toNat % c.banksPerSector)

/-- `(BANK / 8) * 8`: the first bank of the sector (R177). -/
def sectorStart (c : Config) (bank : BitVec 12) : BitVec 12 :=
  BitVec.ofNat 12 (bank.toNat / c.banksPerSector * c.banksPerSector)

/-- `BADMAP[BANK / 8]` (R47, R164). -/
def State.sectorBad (s : State) : Bool :=
  s.badmap.getLsbD (s.bank.toNat / s.cfg.banksPerSector)

/-- `BANK >= BANKCOUNT` (R163). -/
def State.imageDone (s : State) : Bool :=
  s.bankcount.toNat ≤ s.bank.toNat

/-- `BANK mod 8 = 0` (R167). -/
def State.atSectorStart (s : State) : Bool :=
  unitOf s.cfg s.bank = 0

/-- The lock condition of R172: `BANK mod 8 = 7`, the sector's last bank, or `BANK = BANKCOUNT - 1`. -/
def State.lockDue (s : State) : Bool :=
  s.bank.toNat % s.cfg.banksPerSector + 1 = s.cfg.banksPerSector ∨ s.bank.toNat + 1 = s.bankcount.toNat

/-- `BANKCOUNT = 0` or `BANKCOUNT > 2048` (R160). -/
def State.bankcountIllegal (s : State) : Bool :=
  s.bankcount.toNat = 0 ∨ s.cfg.maxBanks < s.bankcount.toNat

/-- `BANKCOUNT * 0x4000 > CAPACITY`, a comparison of naturals (R161). -/
def State.capacityExceeded (s : State) : Bool :=
  s.capacity.toNat < s.bankcount.toNat * s.cfg.bankBytes

/-! ### Decisions on status bytes (R36) -/

/-- DQ6 differs between the two reads of a pair (R234). -/
def dq6Toggled (c : Config) (s1 s2 : Byte) : Bool :=
  s1.getLsbD c.dq6 != s2.getLsbD c.dq6

/-- The decision after an ordinary pair (R234): DQ5 of the first read matters only under toggling. -/
def pollDecision (c : Config) (s1 s2 : Byte) : Phase :=
  if dq6Toggled c s1 s2 then
    if s1.getLsbD c.dq5 then .pollRd3 else .pollSleep
  else .pollSettle

/-- The check of the status read after the poll (R212): the error it raises, if any. Read-one has none
(R213). -/
def statusError (c : Config) (op : PpbOp) (sv : Byte) : Option Result :=
  match op with
  | .eraseAll => if sv.getLsbD c.ppbBit then none else some .ppbEraseFailed
  | .writeOne => if sv.getLsbD c.ppbBit then some .ppbWriteFailed else none
  | .readOne | .none => none

end Machine

end Sys2Proof
end

