-- ==== Sys2Proof/Machine/Ops.lean ====
section
/-! DEFINITION. The named operations over memory and registers: the image memory, the control transfer, the end
of a command, the abort (`raise`, the one shared operation of taking an error) with the failure dispatch and the
re-entry from a retry, one bus transaction, command acceptance, the host register file, hardware reset. -/

namespace Sys2Proof.Machine

/-! ### The image memory (R64, R65) -/

/-- The byte at an index; `none` where the host has not written it (R321). -/
def Memory.read : List Host.Cell → Nat → Option Byte
  | [], _ => none
  | (k, b) :: m, a => if k = a then some b else Memory.read m a

/-- Writing one byte keeps the canonical form: indices strictly rising. -/
def Memory.write : List Host.Cell → Nat → Byte → List Host.Cell
  | [], a, b => [(a, b)]
  | (k, c) :: m, a, b =>
    if a < k then (a, b) :: (k, c) :: m
    else if a = k then (a, b) :: m
    else (k, c) :: Memory.write m a b

/-- The canonical form: indices strictly rising and inside the 25-bit space. Every listed byte differs from
what an unlisted index reads as, which is no value. -/
abbrev Memory.wf (m : List Host.Cell) : Prop :=
  m.Pairwise (fun c d => c.1 < d.1) ∧ ∀ c ∈ m, c.1 < Config.imageBytes

/-- The `n` bytes from index `a` on are all listed, found in one walk. -/
def Memory.covers : List Host.Cell → Nat → Nat → Bool
  | _, _, 0 => true
  | [], _, _ + 1 => false
  | (k, _) :: m, a, n + 1 =>
    if k < a then Memory.covers m a (n + 1)
    else if k = a then Memory.covers m (a + 1) n
    else false

/-- The listed bytes among the `n` from index `a` on, in ascending order, found in one walk. -/
def Memory.bytes : List Host.Cell → Nat → Nat → List Byte
  | _, _, 0 => []
  | [], _, _ + 1 => []
  | (k, b) :: m, a, n + 1 =>
    if k < a then Memory.bytes m a (n + 1)
    else if k = a then b :: Memory.bytes m (a + 1) n
    else []

/-- `slice(BANK)`: the 0x4000 bytes `IMG[BANK*0x4000 + i]`, ascending (R65); `none` where one of them has not
been written. -/
def State.slice (s : State) : Option (List Byte) :=
  if Memory.covers s.img (s.bank.toNat * s.cfg.bankBytes) s.cfg.bankBytes then
    some (Memory.bytes s.img (s.bank.toNat * s.cfg.bankBytes) s.cfg.bankBytes)
  else none

/-! ### Control transfer, the end of a command, the abort -/

/-- `PH <- target` (R11). -/
def State.goto (ph : Phase) (s : State) : State :=
  { s with ph := ph }

/-- `sleep(T)` (R11): lasts at least `T`; in a model without time it does nothing (R340, log 19). -/
def State.sleep (_duration : Nat) (s : State) : State :=
  s

/-- The successful end of a command (R179, R215, R260). -/
def State.finish (s : State) : State :=
  { s with result := .ok, busy := false, done := true, ph := .idle }

/-- `raise <Error>` (R280): taking an error. `BANK`, `ERRCNT`, `SECT`, `S1`, `S2`, `SV`, `MM_EXP`, `MM_ACT`
keep their values; no transaction is issued. -/
def State.raise (e : Result) (s : State) : State :=
  { s with result := e, ppbop := .none, busy := false, done := true, ph := .idle }

/-- `VerificationMismatch` records `MM_BANK <- BANK[10:0]` (R258, R276) and aborts. -/
def State.raiseMismatch (s : State) : State :=
  { s with mmBank := s.bank.setWidth 11 }.raise .verificationMismatch

/-- Failure dispatch (R283): what a `fail` answer does, by the phase that issued the transaction and `OP`. The
verify pass and a standalone PPB command abort; PROGRAM's steps 2 to 5 are retried. -/
def State.failDispatch (s : State) : State :=
  match s.ph with
  | .vfySel0 | .vfySel1 | .vfySel2 | .vfySel3 | .vfyHs1 | .vfyHs2 | .vfyCrc => s.raise .busOperationFailed
  | _ => if s.op = .program then s.goto .prgRetry else s.raise .busOperationFailed

/-- `PRG_RETRY` (R176, R177): the error is counted; the third is fatal; otherwise `PPBOP` is cleared, `BANK`
goes back to its sector's first bank and `RST` follows. -/
def State.retry (s : State) : State :=
  if (s.errcnt + 1).toNat = s.cfg.maxErrors then
    { s with errcnt := s.errcnt + 1 }.raise .busOperationFailed
  else
    { s with errcnt := s.errcnt + 1, ppbop := .none, bank := sectorStart s.cfg s.bank, ph := .prgRreset }

/-! ### One bus transaction (R70, R76, R95) -/

/-- What the environment does in this step: the script's head, else the oracle (log 3). -/
def State.reply (s : State) : Reply :=
  match s.script with
  | r :: _ => r
  | [] => Config.oracle s.oracleTick

/-- The state after that answer has been drawn. -/
def State.drawReply (s : State) : State :=
  match s.script with
  | _ :: rest => { s with script := rest }
  | [] => { s with oracleTick := s.oracleTick + 1 }

/-- The data an `ok` answer carries for a request's kind (R95, R96). -/
def BusReq.okAnswer (rd : BitVec 16) : BusReq → Answer
  | .read .. => .okByte (rd.setWidth 8)
  | .readCrc16 .. => .okCrc rd
  | .reset | .write .. | .eraseSector .. | .programPage .. => .ok

/-- The request's `KIND` (R96). -/
def BusReq.kind : BusReq → BitVec 3
  | .reset => 1
  | .write .. => 2
  | .read .. => 3
  | .eraseSector .. => 4
  | .programPage .. => 5
  | .readCrc16 .. => 6

/-- The transaction is issued, or still outstanding, and is not answered in this step (R128). -/
def State.hold (req : BusReq) (s : State) : State :=
  { s.drawReply with outstanding := some req }

/-- The transaction is answered: none is outstanding, and the history holds it. -/
def State.answered (req : BusReq) (ans : Answer) (s : State) : State :=
  { s.drawReply with outstanding := none, trace := ⟨req, ans⟩ :: s.trace }

/-- One bus transaction: its answer is consumed by `ok` or `fail` before anything else happens (R70). -/
def State.transact (req : BusReq) (ok : BitVec 16 → State → State) (fail : State → State) (s : State) : State :=
  match s.reply with
  | .wait => s.hold req
  | .fail => fail (s.answered req .fail)
  | .ok rd => ok rd (s.answered req (req.okAnswer rd))

/-- The transaction `RST`: it cannot answer `fail` (R121, D24); an answer is `ok` (log 4). -/
def State.transactReset (ok : State → State) (s : State) : State :=
  match s.reply with
  | .wait => s.hold .reset
  | .fail | .ok _ => ok (s.answered .reset .ok)

/-- A progress event (R292). -/
def State.raiseEvent (e : Event) (s : State) : State :=
  { s with events := e :: s.events }

/-! ### Command acceptance (R91, R40) -/

/-- The per-command initial values (R40), and the latched fields of the command word (R91). -/
def State.initCommand (op : Op) (d : Dialect) (v : Bool) (sec : BitVec 8) (s : State) : State :=
  { s with
    busy := true, done := false, result := .ok, errcnt := 0, bank := 0, rdata := 0
    mmBank := 0, mmExp := 0, mmAct := 0, ppbop := .none, s1 := 0, s2 := 0, sv := 0
    op := op, dialect := d, verify := v, sect := sec }

/-- The configuration can run a command of this dialect (R323). -/
def State.dialectConfigured (d : Dialect) (s : State) : Bool :=
  match d with
  | .direct => true
  | .scrambled => s.cfg.scr.isSome

/-- Acceptance of a legal command other than NOP: ignored while `BUSY` = 1 (R49); refused in the scrambled
dialect on a configuration without its functions (R323); else the initial values and the first phase. -/
def State.accept (op : Op) (d : Dialect) (v : Bool) (sec : BitVec 8) (first : State → State) (s : State) : Out :=
  if s.busy then .next s
  else if s.dialectConfigured d then .next (first (s.initCommand op d v sec))
  else .refused .scrambledNotConfigured

/-- Entering the PPB routine (R203, R173). -/
def State.enterPpb (op : PpbOp) (s : State) : State :=
  { s with ppbop := op, ph := .ppbSel0 }

/-- An illegal command word (R94): ignored while `BUSY` = 1; otherwise `IllegalCommand`, and nothing else. -/
def State.rejectCommand (s : State) : State :=
  if s.busy then s
  else { s with result := .illegalCommand, done := true, errcnt := 0 }

/-! ### The host register file (R42 to R49) and hardware reset -/

/-- What reading register `n` returns, zero-extended; 0 for `CMD` and above 10. -/
def State.hostRead (n : Nat) (s : State) : BitVec 256 :=
  match n with
  | 1 => s.status.setWidth 256
  | 2 => s.bankcount.setWidth 256
  | 3 => s.capacity.setWidth 256
  | 4 => s.rdata.setWidth 256
  | 5 => s.mmBank.setWidth 256
  | 6 => s.mmExp.setWidth 256
  | 7 => s.mmAct.setWidth 256
  | 8 => s.bank.setWidth 256
  | 9 => s.ph.code.setWidth 256
  | 10 => s.badmap
  | _ => 0

/-- Writing a register other than `CMD`: ignored while `BUSY` = 1 (R49), ignored where it is read-only or does
not exist (R42). -/
def State.hostWrite (n : Nat) (v : BitVec 256) (s : State) : State :=
  if s.busy then s
  else match n with
    | 2 => { s with bankcount := v.setWidth 12 }
    | 3 => { s with capacity := v.setWidth 32 }
    | 10 => { s with badmap := v }
    | _ => s

/-- Writing one byte of `IMG`: ignored while `BUSY` = 1 (R49, R64). -/
def State.hostWriteImage (index : BitVec 25) (b : Byte) (s : State) : State :=
  if s.busy then s else { s with img := Memory.write s.img index.toNat b }

/-- Hardware reset of a running machine (R310, R311): every register at its reset value, no byte of `IMG`
written, an outstanding transaction abandoned. The configuration and the model's own fields stay (log 9). -/
def State.hardwareReset (s : State) : State :=
  { State.reset with
    cfg := s.cfg, inbox := s.inbox, hostRd := s.hostRd, script := s.script, oracleTick := s.oracleTick
    trace := (s.outstanding.map fun req => ⟨req, .abandoned⟩).toList ++ s.trace
    events := s.events, probe := s.probe }

end Sys2Proof.Machine
end

