-- ==== Sys2Proof/Machine/Operands.lean ====
section
/-! DEFINITION. The operands: the address translator (R140 to R149), the CRC-16 (R250), and the transaction each
phase names with its operands assembled from the registers and the configuration (R30, R97, R98). -/

namespace Sys2Proof.Machine

/-! ### The address translator -/

/-- `SCR_R0(outbank)`: only outbank bits 7, 6, 2, 1, 0 reach it (R144). -/
def scrR0 (c : Scrambled) (outbank : BitVec 8) : Byte :=
  let i := outbank.extractLsb' 6 2 ++ outbank.extractLsb' 0 3
  c.r0[i.toNat]'(by have := i.isLt; omega)

/-- `SCR_R1(outbank)`: only outbank bits 5, 4 reach it (R144). -/
def scrR1 (c : Scrambled) (outbank : BitVec 8) : Byte :=
  let i := outbank.extractLsb' 4 2
  c.r1[i.toNat]'(by have := i.isLt; omega)

/-- `SCR_HSEL(u)` (R149). -/
def scrHsel (c : Scrambled) (u : BitVec 3) : (Addr × Byte) × (Addr × Byte) :=
  c.hsel[u.toNat]'(by have := u.isLt; omega)

/-- The outbank of a bank index: `h / 16` with `h = 2 * bankIndex`, the half-bank index (R144, R145). -/
def outbankOf (c : Config) (b : BitVec 11) : BitVec 8 :=
  BitVec.ofNat 8 (c.bankBytes / c.halfBankBytes * b.toNat / c.halfBanksPerOutbank)

/-- The direct dialect (R141, R142). -/
def translateDirect (b : BitVec 11) : SelectRegs where
  r0 := 0x40 ||| (b.extractLsb' 3 3).setWidth 8 ||| ((b.extractLsb' 9 2).setWidth 8 <<< 4)
  r1 := 0x80 ||| ((b.extractLsb' 7 2).setWidth 8 <<< 2) ||| ((b.extractLsb' 6 1).setWidth 8 <<< 4)
  r2 := 0x00
  r3 := 0x10 ||| ((b.extractLsb' 0 3).setWidth 8 <<< 1)

/-- The scrambled dialect (R144). -/
def translateScrambled (c : Config) (k : Scrambled) (b : BitVec 11) : SelectRegs where
  r0 := scrR0 k (outbankOf c b)
  r1 := scrR1 k (outbankOf c b)
  r2 := 0x00
  r3 := 0x00

/-- `translate(bankIndex, dialect)` (R140): pure, total over 11-bit indices; `none` only in the scrambled
dialect on a configuration without its functions. -/
def translateBank (c : Config) (b : BitVec 11) : Dialect → Option SelectRegs
  | .direct => some (translateDirect b)
  | .scrambled => c.scr.map fun k => translateScrambled c k b

/-! ### The CRC-16 (R250) -/

/-- One shift with the conditional XOR of the polynomial. -/
def crcShift (k : Config) (c : BitVec 16) : BitVec 16 :=
  if c.getLsbD 0 then (c >>> 1) ^^^ k.crcPoly else c >>> 1

/-- One byte: XOR into the low byte, then eight shifts. -/
def crcByte (k : Config) (c : BitVec 16) (d : Byte) : BitVec 16 :=
  Nat.iterate (crcShift k) 8 (c ^^^ d.setWidth 16)

/-- The running CRC over a byte sequence, in ascending order. -/
def crcFrom (k : Config) (c : BitVec 16) : List Byte → BitVec 16
  | [] => c
  | d :: ds => crcFrom k (crcByte k c d) ds

/-- `crc16(bytes)`. -/
def crc16 (k : Config) (bytes : List Byte) : BitVec 16 :=
  crcFrom k k.crcInit bytes

/-! ### The transaction a phase names -/

/-- The exit address: `EX`, equal to `ST` unless configured otherwise (R8, R214, D16). -/
def exitAddr (c : Config) : Addr :=
  c.ex.getD c.st

/-- The program window's base as a bus address. -/
def prgAddr (c : Config) : Addr :=
  BitVec.ofNat 16 c.prg.val

/-- The bank index a select phase translates: `8 * SECT` in the PPB routine (R204, R98), else `BANK` (R166,
R255). -/
def State.selectBank (s : State) : BitVec 11 :=
  match s.ph with
  | .ppbSel0 | .ppbSel1 | .ppbSel2 | .ppbSel3 => BitVec.ofNat 11 (s.cfg.banksPerSector * s.sect.toNat)
  | _ => s.bank.setWidth 11

/-- The bank-select bytes of the current select phase (R146): computed anew each time. -/
def State.selectRegs (s : State) : Option SelectRegs :=
  translateBank s.cfg s.selectBank s.dialect

/-- The half-bank select writes `HALFSEL(BANK mod 8)`, scrambled dialect only (R149). -/
def State.halfSelect (s : State) : Option ((Addr × Byte) × (Addr × Byte)) :=
  match s.dialect with
  | .direct => none
  | .scrambled => s.cfg.scr.map fun c => scrHsel c (unitOf s.cfg s.bank)

/-- The row of the table that the current phase runs (R30's table, R97): the block's "fetch". `none` for the
idle phase and the internal phases of PROGRAM and `PPB_RET`, for a select in the scrambled dialect on a
configuration without its functions, and for a PPB phase whose `PPBOP` names nothing there (U16). -/
def State.instrAt (s : State) : Option Instr :=
  match s.ph with
  | .idle | .prgCheck | .prgHead | .prgLock | .prgNext | .prgRetry | .ppbRet => none
  | .prgReset | .prgRreset | .vfyReset => some .rst
  | .prgSel0 | .vfySel0 | .ppbSel0 => do
    let r ← s.selectRegs
    let d ← Sel0Data.ofByte s.dialect r.r0
    pure (.sel0 s.cfg.reg0 d)
  | .prgSel1 | .vfySel1 | .ppbSel1 => do
    let r ← s.selectRegs
    let d ← Sel1Data.ofByte s.dialect r.r1
    pure (.sel1 s.cfg.reg1 d)
  | .prgSel2 | .vfySel2 | .ppbSel2 => some (.sel2 s.cfg.reg2)
  | .prgSel3 | .vfySel3 | .ppbSel3 => do
    let r ← s.selectRegs
    let d ← Sel3Data.ofByte s.dialect r.r3
    pure (.sel3 s.cfg.reg3 d)
  | .prgErase => some (.erase s.dialect)
  | .prgHs1 | .vfyHs1 => s.halfSelect.map fun p => .hs1 p.1.1 p.1.2
  | .prgHs2 | .vfyHs2 => s.halfSelect.map fun p => .hs2 p.2.1 p.2.2
  | .prgPage => some (.pgm (prgAddr s.cfg) s.dialect)
  | .vfyCrc => some (.crc (prgAddr s.cfg))
  | .vfyHead | .vfyNext => some .verifyPass
  | .ppbEnt1 => some .ent1
  | .ppbEnt2 => some .ent2
  | .ppbEnt3 => some .ent3
  | .ppbCmd1 =>
    match s.ppbop with
    | .eraseAll => some (.ppbe1 s.cfg.st)
    | .writeOne => some (.ppbw1 s.cfg.st)
    | .readOne => some (.ppbr1 s.cfg.st)
    | .none => none
  | .ppbCmd2 =>
    match s.ppbop with
    | .eraseAll => some (.ppbe2 s.cfg.st)
    | .writeOne => some (.ppbw2 s.cfg.st)
    | .readOne | .none => none
  | .ppbSlo => some (.seclo s.cfg.slo s.sect)
  | .ppbShi => some (.sechi s.cfg.shi)
  | .pollRd1 | .pollRd2 | .pollRd3 | .pollRd4 | .ppbStat => some (.r s.cfg.st)
  | .pollSleep | .pollSettle => some .poll
  | .ppbExit1 => some (.exit1 (exitAddr s.cfg))
  | .ppbExit2 => some (.exit2 (exitAddr s.cfg))

/-- The bus request the current phase sends (R95, R127): none in an internal phase, and none for a page program
or a CRC whose slice holds an unwritten byte. -/
def State.request (s : State) : Option BusReq :=
  match s.instrAt with
  | none => none
  | some .rst => some .reset
  | some (.r a) => some (.read a 1)
  | some (.erase m) => some (.eraseSector m)
  | some (.pgm a m) => s.slice.map fun bytes => .programPage a bytes m true
  | some (.crc a) => s.slice.map fun _ => .readCrc16 a (BitVec.ofNat 16 s.cfg.bankBytes)
  | some i => i.cycle.map fun p => .write p.1 p.2

end Sys2Proof.Machine
end

