-- ==== Sys2Proof/Machine/Command.lean ====
section
/-! DEFINITION. The meanings of the command words (format CMD16, R90 to R94): command acceptance. The command
itself then runs phase by phase, one step each. -/

namespace Sys2Proof.Machine

/-- `NOP` (R93): accepted, does nothing; no register changes. -/
def execNop (_d : Dialect) (_v : Bool) (_sec : BitVec 8) (s : State) : Out :=
  .next s

/-- `PPB.ERASEALL` (R200, R203): sector 0 is selected whatever `SECTOR` says. -/
def execPpbEraseAll (d : Dialect) (v : Bool) (_sec : BitVec 8) (s : State) : Out :=
  s.accept .eraseAll d v 0 (State.enterPpb .eraseAll)

/-- `PPB.WRITE s` (R201, R203). -/
def execPpbWrite (d : Dialect) (v : Bool) (sec : BitVec 8) (s : State) : Out :=
  s.accept .write d v sec (State.enterPpb .writeOne)

/-- `PPB.READ s` (R202, R203). -/
def execPpbRead (d : Dialect) (v : Bool) (sec : BitVec 8) (s : State) : Out :=
  s.accept .read d v sec (State.enterPpb .readOne)

/-- `PROGRAM dialect, verify` (R159, R91): the first phase is `PRG_CHECK`. -/
def execProgram (d : Dialect) (v : Bool) (sec : BitVec 8) (s : State) : Out :=
  s.accept .program d v sec (State.goto .prgCheck)

/-- `OPC` = 5 (R94). -/
def execIllegal5 (_d : Dialect) (_v : Bool) (_sec : BitVec 8) (s : State) : Out :=
  .next s.rejectCommand

/-- `OPC` = 6 (R94). -/
def execIllegal6 (_d : Dialect) (_v : Bool) (_sec : BitVec 8) (s : State) : Out :=
  .next s.rejectCommand

/-- `OPC` = 7 (R94). -/
def execIllegal7 (_d : Dialect) (_v : Bool) (_sec : BitVec 8) (s : State) : Out :=
  .next s.rejectCommand

/-- Any of the reserved bits 7:5 set, whatever `OPC` is (R94). -/
def execIllegalRsv (_opc : BitVec 3) (_d : Dialect) (_v : Bool) (_rsv : BitVec 3) (_sec : BitVec 8)
    (s : State) : Out :=
  .next s.rejectCommand

end Sys2Proof.Machine
end

