-- ==== Sys2Proof/Machine/Ppb.lean ====
section
/-! DEFINITION. The PPB routine's status check and return (R211 to R215) and the toggle-bit poll's decisions
(R230 to R240). -/

namespace Sys2Proof.Machine

/-- The byte read in `PPB_STAT` (R211 to R213): kept whole in `RDATA` for read-one; otherwise `SV`, whose bit 0
decides between the exit and the operation's error. -/
def State.statusRead (b : Byte) (s : State) : State :=
  match s.ppbop with
  | .readOne => { s with rdata := b, ph := .ppbExit1 }
  | .none | .eraseAll | .writeOne =>
    match statusError s.cfg s.ppbop b with
    | some e => { s with sv := b }.raise e
    | none => { s with sv := b, ph := .ppbExit1 }

/-- The byte read in one of the poll's read phases (R232 to R239). The last follow-up
pair, if it still toggles, aborts (R239, R275); there is one (R337). -/
def State.pollRead (b : Byte) (s : State) : State :=
  match s.ph with
  | .pollRd1 => { s with s1 := b, ph := .pollRd2 }
  | .pollRd2 => { s with s2 := b, ph := pollDecision s.cfg s.s1 b }
  | .pollRd3 => { s with s1 := b, ph := .pollRd4 }
  | .pollRd4 =>
    if dq6Toggled s.cfg s.s1 b then
      if s.cfg.followUpPairs ≤ 1 then { s with s2 := b }.raise .ppbTimeout else { s with s2 := b, ph := .pollRd3 }
    else { s with s2 := b, ph := .pollSettle }
  | _ => s

/-- `PPB_RET` (R215, R174): back to PROGRAM's loop from its lock, otherwise the command's successful end. -/
def State.ppbRet (s : State) : State :=
  if s.op = .program then { s with ppbop := .none, ph := .prgNext }
  else { s with ppbop := .none }.finish

end Sys2Proof.Machine
end

