-- ==== Sys2Proof/Machine/Program.lean ====
section
/-! DEFINITION. PROGRAM's internal phases, which issue no transaction (R160 to R175), and the successors of its
transaction phases that depend on the state (R167). `PRG_RETRY` is `State.retry`. -/

namespace Sys2Proof.Machine

/-- `PRG_CHECK` (R160, R161): `IllegalCommand` is tested before `CapacityExceeded` (R284 a). -/
def State.prgCheck (s : State) : State :=
  if s.bankcountIllegal then s.raise .illegalCommand
  else if s.capacityExceeded then s.raise .capacityExceeded
  else s.goto .prgReset

/-- `PRG_HEAD` (R163, R164, R179): the end of the image before the bad-sector test (R284 e). -/
def State.prgHead (s : State) : State :=
  if s.imageDone then
    if s.verify then s.goto .vfyReset else s.finish
  else if s.sectorBad then { s with bank := s.bank + BitVec.ofNat 12 s.cfg.banksPerSector }
  else (s.raiseEvent (.bank s.bank s.bankcount)).goto .prgSel0

/-- `after_erase` (R167): the half-bank selects exist in the scrambled dialect only. -/
def State.afterErase (s : State) : Phase :=
  match s.dialect with
  | .scrambled => .prgHs1
  | .direct => .prgPage

/-- The successor of `PRG_SEL3` (R167): an erase at a sector's first bank only. -/
def State.afterPrgSel3 (s : State) : Phase :=
  if s.atSectorStart then .prgErase else s.afterErase

/-- `PRG_LOCK` (R172, R173): the lock runs the PPB phases with `OP` still PROGRAM. -/
def State.prgLock (s : State) : State :=
  if s.lockDue then { s with sect := sectorOf s.cfg s.bank }.enterPpb .writeOne
  else s.goto .prgNext

/-- `PRG_NEXT` (R175). -/
def State.prgNext (s : State) : State :=
  { s with bank := s.bank + 1, ph := .prgHead }

end Sys2Proof.Machine
end

