-- ==== Sys2Proof/Machine/Verify.lean ====
section
/-! DEFINITION. The verify pass's internal phases, its comparison, and the successor of its select (R253 to
R260). -/

namespace Sys2Proof.Machine

/-- The successful end of the verify pass (R260). -/
def State.finishVerify (s : State) : State :=
  { s with mmBank := 0, mmExp := 0, mmAct := 0 }.finish

/-- `VFY_HEAD` (R254): bad sectors are not verified (C4). -/
def State.vfyHead (s : State) : State :=
  if s.imageDone then s.finishVerify
  else if s.sectorBad then { s with bank := s.bank + BitVec.ofNat 12 s.cfg.banksPerSector }
  else (s.raiseEvent (.verify s.bank s.bankcount)).goto .vfySel0

/-- `VFY_NEXT` (R259). -/
def State.vfyNext (s : State) : State :=
  { s with bank := s.bank + 1, ph := .vfyHead }

/-- The successor of `VFY_SEL3` (R255). -/
def State.afterVfySel3 (s : State) : Phase :=
  match s.dialect with
  | .scrambled => .vfyHs1
  | .direct => .vfyCrc

/-- The device's CRC has come (R257, R258): a mismatch aborts at once. -/
def State.vfyCompare (act : BitVec 16) (s : State) : State :=
  if s.mmExp = act then { s with mmAct := act, ph := .vfyNext }
  else { s with mmAct := act }.raiseMismatch

end Sys2Proof.Machine
end

