-- ==== Sys2Proof/Machine/Cycle.lean ====
section
/-! DEFINITION. The meanings of the bus command cycles (format CYC24, R97): each is the one-byte `W` transaction
of its phase, its answer consumed, and the phase's successor; a `fail` goes by the failure dispatch (R283). -/

namespace Sys2Proof.Machine

/-- The cycle `i`, which writes `d` at `a`, in the phase that issues it (R97, R127): on `ok` it does `next`. In
any other phase, or with other operands, it is not issued (log 15). -/
def State.emit (i : Instr) (a : Addr) (d : Byte) (next : State → State) (s : State) : Out :=
  if s.instrAt = some i then .next (s.transact (.write a d) (fun _ => next) State.failDispatch)
  else .fault .notIssuedInThisPhase

/-- The successor of a select phase 0 to 2 (R166, R204, R255). -/
def selSuccessor : Phase → Phase
  | .prgSel0 => .prgSel1
  | .prgSel1 => .prgSel2
  | .prgSel2 => .prgSel3
  | .vfySel0 => .vfySel1
  | .vfySel1 => .vfySel2
  | .vfySel2 => .vfySel3
  | .ppbSel0 => .ppbSel1
  | .ppbSel1 => .ppbSel2
  | .ppbSel2 => .ppbSel3
  | ph => ph

/-- The next phase of a bank select. -/
def State.nextSelect (s : State) : State :=
  s.goto (selSuccessor s.ph)

/-- The end of a bank select: the erase or the transfer of PROGRAM (R167), the transfer of the verify pass
(R255), the command-set entry of the PPB routine (R204). -/
def State.endSelect (s : State) : State :=
  match s.ph with
  | .prgSel3 => s.goto s.afterPrgSel3
  | .vfySel3 => s.goto s.afterVfySel3
  | _ => s.goto .ppbEnt1

/-- `ENT1` (R205). -/
def execEnt1 (s : State) : Out :=
  s.emit .ent1 s.cfg.unlockA 0xAA (State.goto .ppbEnt2)

/-- `ENT2` (R205). -/
def execEnt2 (s : State) : Out :=
  s.emit .ent2 s.cfg.unlockB 0x55 (State.goto .ppbEnt3)

/-- `ENT3` (R205): the end of the command-set entry. -/
def execEnt3 (s : State) : Out :=
  s.emit .ent3 s.cfg.unlockA 0xC0 (State.goto .ppbCmd1)

/-- `PPBE1` (R207). -/
def execPpbe1 (a : Addr) (s : State) : Out :=
  s.emit (.ppbe1 a) a 0x80 (State.goto .ppbCmd2)

/-- `PPBE2` (R207): the poll follows directly. -/
def execPpbe2 (a : Addr) (s : State) : Out :=
  s.emit (.ppbe2 a) a 0x30 (State.goto .pollRd1)

/-- `PPBW1` (R208). -/
def execPpbw1 (a : Addr) (s : State) : Out :=
  s.emit (.ppbw1 a) a 0xA0 (State.goto .ppbCmd2)

/-- `PPBW2` (R208): the sector bytes follow. -/
def execPpbw2 (a : Addr) (s : State) : Out :=
  s.emit (.ppbw2 a) a 0x00 (State.goto .ppbSlo)

/-- `PPBR1` (R209): the status read follows directly, no poll. -/
def execPpbr1 (a : Addr) (s : State) : Out :=
  s.emit (.ppbr1 a) a 0xC0 (State.goto .ppbStat)

/-- `SECLO` (R210). -/
def execSeclo (a : Addr) (sect : BitVec 8) (s : State) : Out :=
  s.emit (.seclo a sect) a sect (State.goto .ppbShi)

/-- `SECHI` (R210): the poll follows directly. -/
def execSechi (a : Addr) (s : State) : Out :=
  s.emit (.sechi a) a 0x00 (State.goto .pollRd1)

/-- `EXIT1` (R214). -/
def execExit1 (a : Addr) (s : State) : Out :=
  s.emit (.exit1 a) a 0x90 (State.goto .ppbExit2)

/-- `EXIT2` (R214). -/
def execExit2 (a : Addr) (s : State) : Out :=
  s.emit (.exit2 a) a 0x00 (State.goto .ppbRet)

/-- `SEL0` (R146): the bank-select byte r0. -/
def execSel0 (a : Addr) (d : Sel0Data) (s : State) : Out :=
  s.emit (.sel0 a d) a d.byte State.nextSelect

/-- `SEL1` (R146): the bank-select byte r1. -/
def execSel1 (a : Addr) (d : Sel1Data) (s : State) : Out :=
  s.emit (.sel1 a d) a d.byte State.nextSelect

/-- `SEL2` (R146): the bank-select byte r2, written although always 0. -/
def execSel2 (a : Addr) (s : State) : Out :=
  s.emit (.sel2 a) a 0x00 State.nextSelect

/-- `SEL3` (R146): the bank-select byte r3, the end of the bank select. -/
def execSel3 (a : Addr) (d : Sel3Data) (s : State) : Out :=
  s.emit (.sel3 a d) a d.byte State.endSelect

/-- The phase after the first half-bank select write. -/
def State.nextHalf (s : State) : State :=
  match s.ph with
  | .vfyHs1 => s.goto .vfyHs2
  | _ => s.goto .prgHs2

/-- The bulk transfer after the second half-bank select write (R169, R256). -/
def State.endHalf (s : State) : State :=
  match s.ph with
  | .vfyHs2 => s.goto .vfyCrc
  | _ => s.goto .prgPage

/-- `HS1` (R149, R169, R256). -/
def execHs1 (a : Addr) (d : Byte) (s : State) : Out :=
  s.emit (.hs1 a d) a d State.nextHalf

/-- `HS2` (R149, R169, R256). -/
def execHs2 (a : Addr) (d : Byte) (s : State) : Out :=
  s.emit (.hs2 a d) a d State.endHalf

/-- The bus command cycle `i`, whichever it is; a row of another format is no cycle. -/
def runCycle (i : Instr) (s : State) : Out :=
  match i with
  | .ent1 => execEnt1 s
  | .ent2 => execEnt2 s
  | .ent3 => execEnt3 s
  | .ppbe1 a => execPpbe1 a s
  | .ppbe2 a => execPpbe2 a s
  | .ppbw1 a => execPpbw1 a s
  | .ppbw2 a => execPpbw2 a s
  | .ppbr1 a => execPpbr1 a s
  | .seclo a sect => execSeclo a sect s
  | .sechi a => execSechi a s
  | .exit1 a => execExit1 a s
  | .exit2 a => execExit2 a s
  | .sel0 a d => execSel0 a d s
  | .sel1 a d => execSel1 a d s
  | .sel2 a => execSel2 a s
  | .sel3 a d => execSel3 a d s
  | .hs1 a d => execHs1 a d s
  | .hs2 a d => execHs2 a d s
  | .nop .. | .ppbEraseAll .. | .ppbWrite .. | .ppbRead .. | .program ..
  | .illegal5 .. | .illegal6 .. | .illegal7 .. | .illegalRsv ..
  | .rst | .w .. | .r .. | .erase .. | .pgm .. | .crc ..
  | .translate .. | .crc16 .. | .poll | .verifyPass => .fault .notIssuedInThisPhase

end Sys2Proof.Machine
end

