-- ==== Sys2Proof/Machine/Bus.lean ====
section
/-! DEFINITION. The meanings of the six bus requests (format BUSREQ, R120 to R127), each in the phase that
issues it. -/

namespace Sys2Proof.Machine

/-- The phase after a `RST` (R162, R178, R253): `VFY_RESET` also starts the verify pass at bank 0. -/
def State.afterReset (s : State) : State :=
  match s.ph with
  | .vfyReset => { s with bank := 0, ph := .vfyHead }
  | _ => s.goto .prgHead

/-- `RST` (R121): writes no register of the block of its own. -/
def execRst (s : State) : Out :=
  if s.instrAt = some .rst then .next (s.transactReset State.afterReset)
  else .fault .notIssuedInThisPhase

/-- `W addr data` (R122): the write that the current phase issues is the bus command cycle whose pattern
`{ADDR, DATA}` it is (R97). -/
def execW (a : Addr) (d : Byte) (s : State) : Out :=
  match s.instrAt with
  | some i => if i.cycle = some (a, d) then runCycle i s else .fault .notIssuedInThisPhase
  | none => .fault .notIssuedInThisPhase

/-- The byte a `R` returned, in the phase that issued it (R123): the status check or the poll. -/
def State.afterRead (rd : BitVec 16) (s : State) : State :=
  match s.ph with
  | .ppbStat => s.statusRead (rd.setWidth 8)
  | _ => s.pollRead (rd.setWidth 8)

/-- `R addr` (R123): one byte. -/
def execR (a : Addr) (s : State) : Out :=
  if s.instrAt = some (.r a) then .next (s.transact (.read a 1) State.afterRead State.failDispatch)
  else .fault .notIssuedInThisPhase

/-- The sector erase progress event, once, when the transaction is issued (R168, R292). -/
def State.raiseEraseEvent (s : State) : State :=
  match s.outstanding with
  | none => s.raiseEvent (.erase (sectorOf s.cfg s.bank))
  | some _ => s

/-- `ERASE m` (R124, R168): the sector erased is the one the mapper selects. -/
def execErase (m : Dialect) (s : State) : Out :=
  if s.instrAt = some (.erase m) then
    .next (s.raiseEraseEvent.transact (.eraseSector m) (fun _ s => s.goto s.afterErase) State.failDispatch)
  else .fault .notIssuedInThisPhase

/-- `PGM addr len m p` (R125, R170, R171): the whole of `slice(BANK)`, `ISPRG` = 1. -/
def execPgm (a : Addr) (m : Dialect) (s : State) : Out :=
  if s.instrAt = some (.pgm a m) then
    match s.slice with
    | some bytes =>
      .next (s.transact (.programPage a bytes m true) (fun _ => State.goto .prgLock) State.failDispatch)
    | none => .refused .imageByteUnwritten
  else .fault .notIssuedInThisPhase

/-- `CRC addr len` (R126, R257): the expected CRC is computed first (log 10), then the device's is asked for. -/
def execCrc (a : Addr) (s : State) : Out :=
  if s.instrAt = some (.crc a) then
    match s.slice with
    | some bytes =>
      .next ({ s with mmExp := crc16 s.cfg bytes }.transact (.readCrc16 a (BitVec.ofNat 16 s.cfg.bankBytes))
        State.vfyCompare State.failDispatch)
    | none => .refused .imageByteUnwritten
  else .fault .notIssuedInThisPhase

end Sys2Proof.Machine
end

