-- ==== Sys2Proof/Machine/Routine.lean ====
section
/-! DEFINITION. The meanings of the pure functions (format FUNCTION) and of the two named sub-sequences (format
SUBSEQUENCE), one step of a sub-sequence at a time (log 17). -/

namespace Sys2Proof.Machine

/-- `translate(bankIndex, dialect)` (R140): no register is written; the value is the probe's (log 16). -/
def execTranslate (b : BitVec 11) (d : Dialect) (s : State) : Out :=
  match translateBank s.cfg b d with
  | some r => .next { s with probe := .regs r }
  | none => .refused .scrambledNotConfigured

/-- `crc16(bytes)` (R250): no register is written; the value is the probe's (log 16). -/
def execCrc16 (bytes : List Byte) (s : State) : Out :=
  .next { s with probe := .crc (crc16 s.cfg bytes) }

/-- `POLL` (R230): the step of the poll its current phase names. The two delays are steps that change the phase
only (R236, R240). -/
def execPoll (s : State) : Out :=
  match s.ph with
  | .pollRd1 | .pollRd2 | .pollRd3 | .pollRd4 => execR s.cfg.st s
  | .pollSleep => .next ((s.sleep s.cfg.tPoll).goto .pollRd1)
  | .pollSettle => .next ((s.sleep s.cfg.tSettle).goto .ppbStat)
  | _ => .fault .notIssuedInThisPhase

/-- `VERIFY.PASS` (R253 to R260): the step of the verify pass its current phase names. -/
def execVerifyPass (s : State) : Out :=
  match s.ph with
  | .vfyReset => execRst s
  | .vfyHead => .next s.vfyHead
  | .vfySel0 | .vfySel1 | .vfySel2 | .vfySel3 | .vfyHs1 | .vfyHs2 =>
    match s.instrAt with
    | some i => runCycle i s
    | none => .refused .scrambledNotConfigured
  | .vfyCrc => execCrc (prgAddr s.cfg) s
  | .vfyNext => .next s.vfyNext
  | _ => .fault .notIssuedInThisPhase

end Sys2Proof.Machine
end

