-- ==== Sys2Proof/Machine/Dispatch.lean ====
section
/-! DEFINITION. The dispatch: one arm per row of spec/opcode_table.json, each one call of its meaning. -/

namespace Sys2Proof.Machine

def exec (i : Instr) (s : State) : Host.Outcome State Fault Refusal :=
  match i with
  -- CMD16: command words
  | .nop d v sec => Sys2Proof.Machine.execNop d v sec s
  | .ppbEraseAll d v sec => Sys2Proof.Machine.execPpbEraseAll d v sec s
  | .ppbWrite d v sec => Sys2Proof.Machine.execPpbWrite d v sec s
  | .ppbRead d v sec => Sys2Proof.Machine.execPpbRead d v sec s
  | .program d v sec => Sys2Proof.Machine.execProgram d v sec s
  | .illegal5 d v sec => Sys2Proof.Machine.execIllegal5 d v sec s
  | .illegal6 d v sec => Sys2Proof.Machine.execIllegal6 d v sec s
  | .illegal7 d v sec => Sys2Proof.Machine.execIllegal7 d v sec s
  | .illegalRsv opc d v rsv sec => Sys2Proof.Machine.execIllegalRsv opc d v rsv sec s
  -- BUSREQ: bus requests
  | .rst => Sys2Proof.Machine.execRst s
  | .w a x => Sys2Proof.Machine.execW a x s
  | .r a => Sys2Proof.Machine.execR a s
  | .erase m => Sys2Proof.Machine.execErase m s
  | .pgm a m => Sys2Proof.Machine.execPgm a m s
  | .crc a => Sys2Proof.Machine.execCrc a s
  -- CYC24: bus command cycles
  | .ent1 => Sys2Proof.Machine.execEnt1 s
  | .ent2 => Sys2Proof.Machine.execEnt2 s
  | .ent3 => Sys2Proof.Machine.execEnt3 s
  | .ppbe1 a => Sys2Proof.Machine.execPpbe1 a s
  | .ppbe2 a => Sys2Proof.Machine.execPpbe2 a s
  | .ppbw1 a => Sys2Proof.Machine.execPpbw1 a s
  | .ppbw2 a => Sys2Proof.Machine.execPpbw2 a s
  | .ppbr1 a => Sys2Proof.Machine.execPpbr1 a s
  | .seclo a sect => Sys2Proof.Machine.execSeclo a sect s
  | .sechi a => Sys2Proof.Machine.execSechi a s
  | .exit1 a => Sys2Proof.Machine.execExit1 a s
  | .exit2 a => Sys2Proof.Machine.execExit2 a s
  | .sel0 a x => Sys2Proof.Machine.execSel0 a x s
  | .sel1 a x => Sys2Proof.Machine.execSel1 a x s
  | .sel2 a => Sys2Proof.Machine.execSel2 a s
  | .sel3 a x => Sys2Proof.Machine.execSel3 a x s
  | .hs1 a x => Sys2Proof.Machine.execHs1 a x s
  | .hs2 a x => Sys2Proof.Machine.execHs2 a x s
  -- FUNCTION: pure functions
  | .translate b d => Sys2Proof.Machine.execTranslate b d s
  | .crc16 bytes => Sys2Proof.Machine.execCrc16 bytes s
  -- SUBSEQUENCE: named routines
  | .poll => Sys2Proof.Machine.execPoll s
  | .verifyPass => Sys2Proof.Machine.execVerifyPass s

end Sys2Proof.Machine
end

