-- ==== Sys2Proof/Machine/Sequencer.lean ====
section
/-! DEFINITION. One step of the machine: a host operation, or one step of the sequencer in the phase `PH`
names (R12, R30); and how a word of the opcode table is placed where the next step runs it (log 18). -/

namespace Sys2Proof.Machine

/-- One step of the sequencer (R30): an internal phase, or the row of the table the phase names. In `IDLE` it
waits for a command word. -/
def runPhase (s : State) : Out :=
  match s.ph with
  | .idle => .next s
  | .prgCheck => .next s.prgCheck
  | .prgHead => .next s.prgHead
  | .prgLock => .next s.prgLock
  | .prgNext => .next s.prgNext
  | .prgRetry => .next s.retry
  | .ppbRet => .next s.ppbRet
  | _ =>
    match s.instrAt with
    | some i => exec i s
    | none =>
      if s.dialectConfigured s.dialect then .fault .phaseWithoutTransaction
      else .refused .scrambledNotConfigured

/-- One operation of the host (R42, R49, R64, R91, R310). `pass` leaves the step to the sequencer. -/
def hostStep (op : HostOp) (s : State) : Out :=
  match op with
  | .write 0 v => exec (decodeCommand (v.setWidth 16)) s
  | .write n v => .next (s.hostWrite n v)
  | .read n => .next { s with hostRd := s.hostRead n }
  | .writeImage index b => .next (s.hostWriteImage index b)
  | .hardwareReset => .next s.hardwareReset
  | .pass => runPhase s

/-- One step: the next host operation where there is one, else the sequencer's (log 6). -/
def advance (s : State) : Out :=
  match s.inbox with
  | [] => runPhase s
  | op :: rest => hostStep op { s with inbox := rest }

/-! ### Placing a word of the opcode table -/

/-- A running command in phase `ph`, the environment's next answer `ok`, the next step the sequencer's. -/
def State.ready (ph : Phase) (s : State) : State :=
  { s with
    inbox := .pass :: s.inbox, script := .ok 0 :: s.script, outstanding := none
    ph := ph, busy := true, done := false, op := .program, ppbop := .none }

/-- A written bank 0, all zero bytes. -/
def zeroBank : List Host.Cell :=
  (List.range Fixed.source.bankBytes).map fun i => (i, 0)

/-- A window base from a bus address. -/
def prgOf (a : Addr) : Fin 0xC001 :=
  Fin.ofNat 0xC001 a.toNat

/-- Scrambled functions that answer one byte and one half-bank write everywhere. -/
def scrambledOf (x : Byte) (p : Addr × Byte) : Scrambled where
  r0 := Vector.replicate 32 x
  r1 := Vector.replicate 4 x
  hsel := Vector.replicate 8 (p, p)

/-- The state in which the next step runs `i`: a command word written by the host; for a row of the sequencer,
its phase, with the registers and the configuration its operands come from (log 18). -/
def State.place (i : Instr) (s : State) : State :=
  match i with
  | .nop .. | .ppbEraseAll .. | .ppbWrite .. | .ppbRead .. | .program ..
  | .illegal5 .. | .illegal6 .. | .illegal7 .. | .illegalRsv .. =>
    match encode i with
    | some (.cmd16 word) => { s with inbox := .write 0 (word.setWidth 256) :: s.inbox }
    | _ => s
  | .rst => s.ready .prgReset
  | .w a x | .seclo a x =>
    { s.ready .ppbSlo with cfg := { s.cfg with slo := a }, sect := x, ppbop := .writeOne }
  | .r a => { s.ready .pollRd1 with cfg := { s.cfg with st := a }, ppbop := .writeOne }
  | .erase m => { s.ready .prgErase with dialect := m }
  | .pgm a m =>
    { s.ready .prgPage with cfg := { s.cfg with prg := prgOf a }, dialect := m, bank := 0, img := zeroBank }
  | .crc a => { s.ready .vfyCrc with cfg := { s.cfg with prg := prgOf a }, bank := 0, img := zeroBank }
  | .ent1 => { s.ready .ppbEnt1 with ppbop := .writeOne }
  | .ent2 => { s.ready .ppbEnt2 with ppbop := .writeOne }
  | .ent3 => { s.ready .ppbEnt3 with ppbop := .writeOne }
  | .ppbe1 a => { s.ready .ppbCmd1 with cfg := { s.cfg with st := a }, op := .eraseAll, ppbop := .eraseAll }
  | .ppbe2 a => { s.ready .ppbCmd2 with cfg := { s.cfg with st := a }, op := .eraseAll, ppbop := .eraseAll }
  | .ppbw1 a => { s.ready .ppbCmd1 with cfg := { s.cfg with st := a }, ppbop := .writeOne }
  | .ppbw2 a => { s.ready .ppbCmd2 with cfg := { s.cfg with st := a }, ppbop := .writeOne }
  | .ppbr1 a => { s.ready .ppbCmd1 with cfg := { s.cfg with st := a }, op := .read, ppbop := .readOne }
  | .sechi a => { s.ready .ppbShi with cfg := { s.cfg with shi := a }, ppbop := .writeOne }
  | .exit1 a => { s.ready .ppbExit1 with cfg := { s.cfg with ex := some a }, ppbop := .writeOne }
  | .exit2 a => { s.ready .ppbExit2 with cfg := { s.cfg with ex := some a }, ppbop := .writeOne }
  | .sel0 a (.direct x y) =>
    { s.ready .prgSel0 with
      cfg := { s.cfg with reg0 := a }, dialect := .direct
      bank := (x.setWidth 12 <<< 9) ||| (y.setWidth 12 <<< 3) }
  | .sel0 a (.scrambled x) =>
    { s.ready .prgSel0 with
      cfg := { s.cfg with reg0 := a, scr := some (scrambledOf x (0, 0)) }
      dialect := .scrambled }
  | .sel1 a (.direct x y) =>
    { s.ready .prgSel1 with
      cfg := { s.cfg with reg1 := a }, dialect := .direct
      bank := (x.setWidth 12 <<< 6) ||| (y.setWidth 12 <<< 7) }
  | .sel1 a (.scrambled x) =>
    { s.ready .prgSel1 with
      cfg := { s.cfg with reg1 := a, scr := some (scrambledOf x (0, 0)) }
      dialect := .scrambled }
  | .sel2 a => { s.ready .prgSel2 with cfg := { s.cfg with reg2 := a } }
  | .sel3 a (.direct x) =>
    { s.ready .prgSel3 with
      cfg := { s.cfg with reg3 := a }, dialect := .direct, bank := x.setWidth 12 }
  | .sel3 a .scrambled =>
    { s.ready .prgSel3 with
      cfg := { s.cfg with reg3 := a, scr := some (scrambledOf 0 (0, 0)) }
      dialect := .scrambled }
  | .hs1 a x =>
    { s.ready .prgHs1 with cfg := { s.cfg with scr := some (scrambledOf 0 (a, x)) }, dialect := .scrambled }
  | .hs2 a x =>
    { s.ready .prgHs2 with cfg := { s.cfg with scr := some (scrambledOf 0 (a, x)) }, dialect := .scrambled }
  | .poll => { s.ready .pollSleep with ppbop := .writeOne }
  | .verifyPass => s.ready .vfyHead
  | .translate .. | .crc16 .. => s

/-- A word of the opcode table placed where the next step runs it; a word the decoder refuses places nothing. -/
def State.placeWord (s : State) (nbits w : Nat) : State :=
  match decodeTableWord nbits w with
  | some i => s.place i
  | none => s

end Sys2Proof.Machine
end

