-- ==== Sys2Proof/Machine/Step.lean ====
section
/-! DEFINITION. The step of the machine, and a word of the opcode table stored where the step takes its next
instruction. -/

namespace Sys2Proof.Machine

/-- One step of the machine (R12). -/
def step (s : State) : Host.Outcome State Fault Refusal :=
  advance s

/-- `s` with a word of the opcode table where the next step runs it (log 18). -/
def State.withFetchWord (s : State) (nbits w : Nat) : State :=
  s.placeWord nbits w

end Sys2Proof.Machine
end

