-- ==== Sys2Proof/Safety.lean ====
section
/-! DEFINITION. What counts as a good state and a safe run, in the terms the claims use: the invariant of the
machine, the bank a command has in hand, and which outcomes are next states. -/

namespace Sys2Proof.Machine

/-- The phases of PROGRAM and of the verify pass in which a bank is in hand: after the loop head's tests and
before the next bank. -/
def bankPhase : Phase → Bool
  | .prgSel0 | .prgSel1 | .prgSel2 | .prgSel3 | .prgErase | .prgHs1 | .prgHs2 | .prgPage | .prgLock
  | .prgNext | .prgRetry | .prgRreset
  | .vfySel0 | .vfySel1 | .vfySel2 | .vfySel3 | .vfyHs1 | .vfyHs2 | .vfyCrc | .vfyNext => true
  | _ => false

/-- PROGRAM has a bank in hand: one of its own phases, or the lock of a sector (R173). -/
def State.bankInHand (s : State) : Prop :=
  bankPhase s.ph = true ∨ (s.ph.routine = 3 ∧ s.op = .program)

/-- The phases of the poll and the second command cycle, which read-one never enters (R209). -/
def notReadPhase : Phase → Bool
  | .ppbCmd2 | .pollRd1 | .pollRd2 | .pollSleep | .pollRd3 | .pollRd4 | .pollSettle => true
  | _ => false

/-- The half-bank select phases (R149). -/
def halfSelectPhase : Phase → Bool
  | .prgHs1 | .prgHs2 | .vfyHs1 | .vfyHs2 => true
  | _ => false

/-- The PPB operation the current command runs in the PPB phases (R203, R173). -/
def State.ppbOpDue (s : State) : PpbOp :=
  if s.op = .program then .writeOne else s.op.ppbOp

/-- The states a run reaches, as far as the rules bound them. -/
structure State.Good (s : State) : Prop where
  /-- `IMG` is in canonical form. -/
  image : Memory.wf s.img
  /-- `BUSY` = 0 exactly in `IDLE` (R32, R91). -/
  busy_iff : s.busy = true ↔ s.ph ≠ .idle
  /-- `BUSY` and `DONE` are never both 1 (R32). -/
  not_both : ¬(s.busy = true ∧ s.done = true)
  /-- `RESULT` is 0 while a command runs (U15). -/
  result_ok : s.busy = true → s.result = .ok
  /-- While a command runs the error counter is below `MAX_ERRORS` (R22, R177). -/
  errors : s.busy = true → s.errcnt.toNat < s.cfg.maxErrors
  /-- A running command's dialect is configured (R323). -/
  configured : s.busy = true → s.dialectConfigured s.dialect = true
  /-- The routines of PROGRAM run under `OP` = 4 (R283's table). -/
  program_op : s.ph.routine = 1 ∨ s.ph.routine = 2 → s.op = .program
  /-- The PPB phases run the operation of their command (R203, R173). -/
  ppb_op : s.ph.routine = 3 → s.op ≠ .none ∧ s.ppbop = s.ppbOpDue
  /-- `PPBOP` is 0 outside the PPB routine, but for a failed transaction's way into `PRG_RETRY` (R25). -/
  no_ppb_op : s.ph.routine ≠ 3 → s.ph ≠ .prgRetry → s.ppbop = .none
  /-- Read-one never enters the second command cycle or the poll (R209). -/
  not_read : notReadPhase s.ph = true → s.ppbop ≠ .readOne
  /-- Only write-one sends the sector bytes (R210). -/
  write_only : s.ph = .ppbSlo ∨ s.ph = .ppbShi → s.ppbop = .writeOne
  /-- The checks of `PRG_CHECK` hold of a running PROGRAM after it (R160, R161). -/
  checked : s.busy = true → s.op = .program → s.ph ≠ .prgCheck →
    s.bankcountIllegal = false ∧ s.capacityExceeded = false
  /-- `BANK <= 8 * ceil(BANKCOUNT / 8)` (R165). -/
  bank_le : s.busy = true → s.op = .program → s.ph ≠ .prgCheck →
    s.bank.toNat ≤ 8 * ((s.bankcount.toNat + 7) / 8)
  /-- `BANK` is 0 when `PRG_CHECK` runs (R40). -/
  check_bank : s.ph = .prgCheck ∨ s.ph = .prgReset → s.bank = 0
  /-- A bank in hand is a bank of the image in a good sector (R163, R164). -/
  in_hand : s.bankInHand → s.imageDone = false ∧ s.sectorBad = false
  /-- Before a retry, `BANK` is its sector's first bank (R177). -/
  retry_start : s.ph = .prgRreset → unitOf s.cfg s.bank = 0
  /-- A bad sector is found only at its first bank (R165). -/
  skip_aligned : s.ph = .prgHead ∨ s.ph = .vfyHead → s.sectorBad = true → unitOf s.cfg s.bank = 0
  /-- The lock acts on the sector of the bank in hand (R173). -/
  lock_sector : s.ph.routine = 3 → s.op = .program → s.sect = sectorOf s.cfg s.bank
  /-- The half-bank select exists in the scrambled dialect only (R149, R167). -/
  half_scrambled : halfSelectPhase s.ph = true → s.dialect = .scrambled
  /-- An outstanding transaction is the one the current phase sends (R70, R127). -/
  outstanding_eq : ∀ req, s.outstanding = some req → s.request = some req

/-- The bank whose bytes a select phase writes, as a number: `8 * SECT` in the PPB routine, else `BANK` (R166,
R204, R255). -/
def State.selected (s : State) : Nat :=
  if s.ph.routine = 3 then 8 * s.sect.toNat else s.bank.toNat

/-- What tells the cycles of one pattern apart in this state (R97). -/
def State.cycleContext (s : State) : CycleContext :=
  ⟨s.ph, s.ppbop, s.dialect⟩

/-- The instruction is a command word (R90, R92, R94). -/
def isCommand : Instr → Bool
  | .nop .. | .ppbEraseAll .. | .ppbWrite .. | .ppbRead .. | .program ..
  | .illegal5 .. | .illegal6 .. | .illegal7 .. | .illegalRsv .. => true
  | .rst | .w .. | .r .. | .erase .. | .pgm .. | .crc ..
  | .ent1 | .ent2 | .ent3 | .ppbe1 .. | .ppbe2 .. | .ppbw1 .. | .ppbw2 .. | .ppbr1 ..
  | .seclo .. | .sechi .. | .exit1 .. | .exit2 ..
  | .sel0 .. | .sel1 .. | .sel2 .. | .sel3 .. | .hs1 .. | .hs2 ..
  | .translate .. | .crc16 .. | .poll | .verifyPass => false

/-- A bus address of the table of R61: the two unlock addresses and the addresses of the configuration. -/
def State.emits (s : State) (a : Addr) : Prop :=
  a = 0x8AAA ∨ a = 0x8555 ∨ a = s.cfg.st ∨ a = s.cfg.ex.getD s.cfg.st ∨
  a = s.cfg.slo ∨ a = s.cfg.shi ∨ a = s.cfg.reg0 ∨ a = s.cfg.reg1 ∨ a = s.cfg.reg2 ∨ a = s.cfg.reg3 ∨
  a.toNat = s.cfg.prg.val ∨
  ∃ c u, s.cfg.scr = some c ∧ (a = (scrHsel c u).1.1 ∨ a = (scrHsel c u).2.1)

/-- In `s` the step is the sequencer's, which moves in `u`: the host has nothing to do, or passes (log 6). -/
def State.sequencerTurn (s u : State) : Prop :=
  (s.inbox = [] ∧ u = s) ∨ ∃ rest, s.inbox = .pass :: rest ∧ u = { s with inbox := rest }

/-- The outcome is a next state. -/
def isNext : Out → Bool
  | .next _ => true
  | .fault _ | .refused _ => false

/-- The outcome is a fault. -/
def isFault : Out → Bool
  | .fault _ => true
  | .next _ | .refused _ => false

/-- The instruction sends one of the six bus transactions (R95, R97): the rows of BUSREQ and CYC24. -/
def isTransaction : Instr → Bool
  | .rst | .w .. | .r .. | .erase .. | .pgm .. | .crc ..
  | .ent1 | .ent2 | .ent3 | .ppbe1 .. | .ppbe2 .. | .ppbw1 .. | .ppbw2 .. | .ppbr1 ..
  | .seclo .. | .sechi .. | .exit1 .. | .exit2 ..
  | .sel0 .. | .sel1 .. | .sel2 .. | .sel3 .. | .hs1 .. | .hs2 .. => true
  | .nop .. | .ppbEraseAll .. | .ppbWrite .. | .ppbRead .. | .program ..
  | .illegal5 .. | .illegal6 .. | .illegal7 .. | .illegalRsv ..
  | .translate .. | .crc16 .. | .poll | .verifyPass => false

end Sys2Proof.Machine
end

