-- ==== Sys2Proof/Certificates/Slice0/Obligations.lean ====
section
/-! DEFINITION. The statements for the provers, `Obligations.<Name>`, in the order of OBLIGATIONS.json: command
acceptance and the host port, the pure functions, the transactions row by row, the internal phases, errors, the
step and the decoder, rules about the whole machine. `s.answered req ans` and `s.hold req` are spelled out, field
by field, by `TransactionFrame`. -/

open Sys2Proof Sys2Proof.Machine

/-! ### Command words and the host port -/

/-- R93: NOP does nothing, and the all-zero word is NOP. -/
def Obligations.NopDoesNothing : Prop :=
  (∀ (d : Dialect) (v : Bool) (sec : BitVec 8) (s : State), exec (.nop d v sec) s = .next s) ∧
  decodeCommand 0 = .nop .direct false 0

/-- R40, R91: accepting a legal command writes every per-command register and nothing else, latches the fields of
the word and enters the opcode's first phase (R203). With `BUSY` = 1 every command word is ignored (R49). That the
fields an opcode ignores are latched as well, `VERIFY` for the PPB commands and `SECT` for PROGRAM, is the model's
reading (log 12). -/
def Obligations.CommandAcceptance : Prop :=
  (∀ (s : State) (d : Dialect) (v : Bool) (sec : BitVec 8), s.busy = false → s.dialectConfigured d = true →
    let start (op : Op) (sect : BitVec 8) (ppbop : PpbOp) (ph : Phase) : State :=
      { s with
        busy := true, done := false, result := .ok, errcnt := 0, bank := 0, rdata := 0
        mmBank := 0, mmExp := 0, mmAct := 0, s1 := 0, s2 := 0, sv := 0
        op := op, dialect := d, verify := v, sect := sect, ppbop := ppbop, ph := ph }
    exec (.ppbEraseAll d v sec) s = .next (start .eraseAll 0 .eraseAll .ppbSel0) ∧
    exec (.ppbWrite d v sec) s = .next (start .write sec .writeOne .ppbSel0) ∧
    exec (.ppbRead d v sec) s = .next (start .read sec .readOne .ppbSel0) ∧
    exec (.program d v sec) s = .next (start .program sec .none .prgCheck)) ∧
  (∀ (s : State) (i : Instr), s.busy = true → isCommand i = true → exec i s = .next s)

/-- R94: an illegal command word, by its bits and as its four rows, sets `RESULT`, `DONE` and `ERRCNT` only. -/
def Obligations.IllegalCommands : Prop :=
  (∀ (s : State) (word : BitVec 16), s.busy = false →
    (word.extractLsb' 5 3 ≠ 0 ∨ 5 ≤ (word.extractLsb' 0 3).toNat) →
    exec (decodeCommand word) s = .next { s with result := .illegalCommand, done := true, errcnt := 0 }) ∧
  (∀ (s : State) (opc rsv : BitVec 3) (d : Dialect) (v : Bool) (sec : BitVec 8), s.busy = false →
    ∀ i ∈ [Instr.illegal5 d v sec, .illegal6 d v sec, .illegal7 d v sec, .illegalRsv opc d v rsv sec],
      exec i s = .next { s with result := .illegalCommand, done := true, errcnt := 0 })

/-- R323, R144: the scrambled dialect on a configuration without its functions is refused, the command and the
function alike. -/
def Obligations.ScrambledUnconfiguredRefused : Prop :=
  ∀ (s : State) (v : Bool) (sec : BitVec 8) (b : BitVec 11), s.cfg.scr = none →
    (s.busy = false →
      ∀ i ∈ [Instr.ppbEraseAll .scrambled v sec, .ppbWrite .scrambled v sec, .ppbRead .scrambled v sec,
        .program .scrambled v sec], exec i s = .refused .scrambledNotConfigured) ∧
    exec (.translate b .scrambled) s = .refused .scrambledNotConfigured

/-- R49: while `BUSY` = 1 a host write of any register or of the image changes nothing; a read is always
allowed. -/
def Obligations.BusyIgnoresHostWrites : Prop :=
  (∀ (s : State) (n : Nat) (v : BitVec 256) (rest : List HostOp), s.busy = true → s.inbox = .write n v :: rest →
    step s = .next { s with inbox := rest }) ∧
  (∀ (s : State) (k : BitVec 25) (b : Byte) (rest : List HostOp), s.busy = true →
    s.inbox = .writeImage k b :: rest → step s = .next { s with inbox := rest }) ∧
  (∀ (s : State) (n : Nat) (rest : List HostOp), s.inbox = .read n :: rest →
    step s = .next { s with inbox := rest, hostRd := s.hostRead n })

/-- R42: what each register number reads as, and what a write to each number other than `CMD` does while
`BUSY` = 0. R30: the code of each phase, which `PHASE` shows. The spec says nothing of a host value wider than the
register; that the register takes the low bits of a 256-bit host value is the model's choice (log 6). -/
def Obligations.HostRegisterFile : Prop :=
  (∀ s : State,
    s.hostRead 0 = 0 ∧ s.hostRead 1 = s.status.setWidth 256 ∧ s.hostRead 2 = s.bankcount.setWidth 256 ∧
    s.hostRead 3 = s.capacity.setWidth 256 ∧ s.hostRead 4 = s.rdata.setWidth 256 ∧
    s.hostRead 5 = s.mmBank.setWidth 256 ∧ s.hostRead 6 = s.mmExp.setWidth 256 ∧
    s.hostRead 7 = s.mmAct.setWidth 256 ∧ s.hostRead 8 = s.bank.setWidth 256 ∧
    s.hostRead 9 = s.ph.code.setWidth 256 ∧ s.hostRead 10 = s.badmap ∧ ∀ n > 10, s.hostRead n = 0) ∧
  [Phase.idle].map Phase.code = [0x00] ∧
  [Phase.prgCheck, .prgReset, .prgHead, .prgSel0, .prgSel1, .prgSel2, .prgSel3, .prgErase].map Phase.code =
    [0x20, 0x21, 0x22, 0x23, 0x24, 0x25, 0x26, 0x27] ∧
  [Phase.prgHs1, .prgHs2, .prgPage, .prgLock, .prgNext, .prgRetry, .prgRreset].map Phase.code =
    [0x28, 0x29, 0x2A, 0x2B, 0x2C, 0x2D, 0x2E] ∧
  [Phase.vfyReset, .vfyHead, .vfySel0, .vfySel1, .vfySel2, .vfySel3, .vfyHs1, .vfyHs2, .vfyCrc, .vfyNext].map
    Phase.code = [0x40, 0x41, 0x42, 0x43, 0x44, 0x45, 0x46, 0x47, 0x48, 0x49] ∧
  [Phase.ppbSel0, .ppbSel1, .ppbSel2, .ppbSel3, .ppbEnt1, .ppbEnt2, .ppbEnt3, .ppbCmd1, .ppbCmd2, .ppbSlo,
    .ppbShi].map Phase.code = [0x60, 0x61, 0x62, 0x63, 0x64, 0x65, 0x66, 0x67, 0x68, 0x69, 0x6A] ∧
  [Phase.pollRd1, .pollRd2, .pollSleep, .pollRd3, .pollRd4, .pollSettle, .ppbStat, .ppbExit1, .ppbExit2,
    .ppbRet].map Phase.code = [0x6B, 0x6C, 0x6D, 0x6E, 0x6F, 0x70, 0x71, 0x72, 0x73, 0x74] ∧
  (∀ (s : State) (n : Nat) (v : BitVec 256) (rest : List HostOp), s.busy = false → s.inbox = .write n v :: rest →
    n ≠ 0 →
    step s = .next { s with
      inbox := rest
      bankcount := if n = 2 then v.setWidth 12 else s.bankcount
      capacity := if n = 3 then v.setWidth 32 else s.capacity
      badmap := if n = 10 then v else s.badmap })

/-- R44: the bits of `STATUS`, and that a host write to it is ignored. R270: the eight codes of `RESULT`. -/
def Obligations.StatusWord : Prop :=
  (∀ s : State,
    s.status.getLsbD 0 = s.busy ∧ s.status.getLsbD 1 = s.done ∧
    s.status.extractLsb' 2 3 = s.result.code ∧ s.status.extractLsb' 5 2 = s.errcnt ∧
    s.status.extractLsb' 7 9 = 0) ∧
  [Result.ok, .capacityExceeded, .busOperationFailed, .ppbEraseFailed, .ppbWriteFailed, .ppbTimeout,
    .verificationMismatch, .illegalCommand].map Result.code = [0, 1, 2, 3, 4, 5, 6, 7] ∧
  (∀ (s : State) (v : BitVec 256) (rest : List HostOp), s.inbox = .write 1 v :: rest →
    step s = .next { s with inbox := rest })

/-- R64: writing one byte of the image while `BUSY` = 0 changes that byte and no other, and keeps the canonical
form. -/
def Obligations.ImageWrite : Prop :=
  ∀ (s : State) (k : BitVec 25) (b : Byte) (rest : List HostOp), s.busy = false →
    s.inbox = .writeImage k b :: rest →
    ∃ img, step s = .next { s with inbox := rest, img := img } ∧
      Memory.read img k.toNat = some b ∧
      (∀ j, j ≠ k.toNat → Memory.read img j = Memory.read s.img j) ∧
      (Memory.wf s.img → Memory.wf img)

/-- R65: `slice(BANK)` is the 0x4000 bytes `IMG[BANK*0x4000 + i]`, ascending; R321: it has a value exactly where
every one of them has been written. -/
def Obligations.SliceOfBank : Prop :=
  ∀ s : State, Memory.wf s.img →
    (∀ bytes, s.slice = some bytes →
      bytes.length = 0x4000 ∧ ∀ i < 0x4000, Memory.read s.img (s.bank.toNat * 0x4000 + i) = bytes[i]?) ∧
    (s.slice = none ↔ ∃ i < 0x4000, Memory.read s.img (s.bank.toNat * 0x4000 + i) = none)

/-- R41: every register after reset, no byte of the image written, nothing outstanding. -/
def Obligations.ResetValues : Prop :=
  let s := State.reset
  s.ph = .idle ∧ s.ph.code = 0x00 ∧ s.busy = false ∧ s.done = false ∧ s.result.code = 0 ∧ s.errcnt = 0 ∧
  s.bank = 0 ∧ s.op.code = 0 ∧ s.dialect = .direct ∧ s.verify = false ∧ s.sect = 0 ∧ s.ppbop.code = 0 ∧
  s.s1 = 0 ∧ s.s2 = 0 ∧ s.sv = 0 ∧ s.rdata = 0 ∧ s.mmBank = 0 ∧ s.mmExp = 0 ∧ s.mmAct = 0 ∧
  s.bankcount = 0 ∧ s.capacity = 0 ∧ s.badmap = 0 ∧ (∀ k, Memory.read s.img k = none) ∧ s.outstanding = none

/-- R310, R311: a hardware reset, also of a running command, puts every register at its reset value and abandons
the outstanding transaction. That the model's own fields and the configuration stay is log 9. -/
def Obligations.HardwareReset : Prop :=
  ∀ (s : State) (rest : List HostOp), s.inbox = .hardwareReset :: rest →
    step s = .next { State.reset with
      cfg := s.cfg, inbox := rest, hostRd := s.hostRd, script := s.script, oracleTick := s.oracleTick
      events := s.events, probe := s.probe
      trace := match s.outstanding with
        | some req => ⟨req, .abandoned⟩ :: s.trace
        | none => s.trace }

/-! ### The pure functions -/

/-- R141, R142: every bit of the four bytes of the direct dialect. -/
def Obligations.DirectTranslation : Prop :=
  ∀ (k : Config) (b : BitVec 11), ∃ r, translateBank k b .direct = some r ∧
    r.r0.extractLsb' 0 3 = b.extractLsb' 3 3 ∧ r.r0.getLsbD 3 = false ∧
    r.r0.extractLsb' 4 2 = b.extractLsb' 9 2 ∧ r.r0.getLsbD 6 = true ∧ r.r0.getLsbD 7 = false ∧
    r.r1.extractLsb' 0 2 = 0 ∧ r.r1.extractLsb' 2 2 = b.extractLsb' 7 2 ∧
    r.r1.getLsbD 4 = b.getLsbD 6 ∧ r.r1.extractLsb' 5 2 = 0 ∧ r.r1.getLsbD 7 = true ∧
    r.r2 = 0x00 ∧
    r.r3.getLsbD 0 = false ∧ r.r3.extractLsb' 1 3 = b.extractLsb' 0 3 ∧ r.r3.getLsbD 4 = true ∧
    r.r3.extractLsb' 5 3 = 0

/-- R143 (derived): the direct dialect is injective, and banks of one sector differ in r3 only. -/
def Obligations.DirectTranslationInjective : Prop :=
  ∀ (k : Config) (b c : BitVec 11),
    (translateBank k b .direct = translateBank k c .direct → b = c) ∧
    (b.toNat / 8 = c.toNat / 8 → ∀ r q, translateBank k b .direct = some r → translateBank k c .direct = some q →
      r.r0 = q.r0 ∧ r.r1 = q.r1 ∧ r.r2 = q.r2)

/-- R144, R145: in the scrambled dialect r0 is `SCR_R0(outbank)` and r1 is `SCR_R1(outbank)`, where the outbank is
the bank index divided by 8; r2 and r3 are zero. `SCR_R0` is a table indexed by outbank bits {7, 6, 2, 1, 0} and
`SCR_R1` one indexed by bits {5, 4} (log 20), so that indices that agree on those bits get the same bytes. -/
def Obligations.ScrambledTranslation : Prop :=
  ∀ (k : Config) (c : Scrambled) (b : BitVec 11), k.scr = some c →
    ∃ (r : SelectRegs) (i : Fin 32) (j : Fin 4), translateBank k b .scrambled = some r ∧
      i.val = b.toNat / 8 / 64 * 8 + b.toNat / 8 % 8 ∧ j.val = b.toNat / 8 / 16 % 4 ∧
      r.r0 = c.r0[i] ∧ r.r1 = c.r1[j] ∧ r.r2 = 0x00 ∧ r.r3 = 0x00 ∧
      ∀ (d : BitVec 11) (q : SelectRegs), translateBank k d .scrambled = some q →
        ((∀ n ∈ [0, 1, 2, 6, 7], (b.toNat / 8).testBit n = (d.toNat / 8).testBit n) → r.r0 = q.r0) ∧
        ((∀ n ∈ [4, 5], (b.toNat / 8).testBit n = (d.toNat / 8).testBit n) → r.r1 = q.r1)

/-- R140, R250: the two pure functions complete wherever they have a value and write no register of the block;
where the value is kept is the model's choice (log 16). -/
def Obligations.PureFunctionRows : Prop :=
  (∀ (s : State) (b : BitVec 11) (d : Dialect), s.dialectConfigured d = true →
    ∃ r, translateBank s.cfg b d = some r ∧ exec (.translate b d) s = .next { s with probe := .regs r }) ∧
  (∀ (s : State) (bytes : List Byte), exec (.crc16 bytes) s = .next { s with probe := .crc (crc16 s.cfg bytes) })

/-- R250: the CRC's value on no byte, on each single byte as the eight steps give it, and byte by byte on longer
sequences. -/
def Obligations.CrcByteByByte : Prop :=
  ∀ k : Config,
    crc16 k [] = 0x0000 ∧ (∀ c : BitVec 16, crcFrom k c [] = c) ∧
    (∀ (c : BitVec 16) (d : Byte) (ds : List Byte), crcFrom k c (d :: ds) = crcFrom k (crcByte k c d) ds) ∧
    (∀ (c : BitVec 16) (d : Byte),
      let shift (x : BitVec 16) : BitVec 16 := if x.getLsbD 0 then (x >>> 1) ^^^ 0xA001#16 else x >>> 1
      crcByte k c d =
        shift (shift (shift (shift (shift (shift (shift (shift (c ^^^ d.setWidth 16))))))))) ∧
    (∀ bytes : List Byte, crc16 k bytes = crcFrom k 0x0000 bytes)

/-- R252 (derived): a change of one byte always changes the CRC of a sequence; leading zero bytes never do. -/
def Obligations.CrcDetectsOneByte : Prop :=
  ∀ k : Config,
    (∀ (before after : List Byte) (x y : Byte), x ≠ y →
      crc16 k (before ++ x :: after) ≠ crc16 k (before ++ y :: after)) ∧
    (∀ (n : Nat) (bytes : List Byte), crc16 k (List.replicate n 0x00 ++ bytes) = crc16 k bytes)

/-! ### The transactions, row by row -/

/-- What one answered transaction, and one that is not answered yet, leave: the answer is drawn, the history grows
by the ended transaction, nothing else changes (log 3, log 5). -/
def Obligations.TransactionFrame : Prop :=
  ∀ (s : State) (req : BusReq) (ans : Answer),
    s.answered req ans =
      { s with
        outstanding := none, trace := ⟨req, ans⟩ :: s.trace, script := s.script.tail
        oracleTick := if s.script = [] then s.oracleTick + 1 else s.oracleTick } ∧
    s.hold req =
      { s with
        outstanding := some req, script := s.script.tail
        oracleTick := if s.script = [] then s.oracleTick + 1 else s.oracleTick }

/-- R30 (the table), R97: the row each phase runs, with its operands; none in an internal phase of PROGRAM, in
`PPB_RET` and in `IDLE`. -/
def Obligations.PhaseTable : Prop :=
  ∀ s : State,
    (s.ph ∈ [.idle, .prgCheck, .prgHead, .prgLock, .prgNext, .prgRetry, .ppbRet] → s.instrAt = none) ∧
    (s.ph ∈ [.prgReset, .prgRreset, .vfyReset] → s.instrAt = some .rst) ∧
    (s.ph ∈ [.prgSel2, .vfySel2, .ppbSel2] → s.instrAt = some (.sel2 s.cfg.reg2)) ∧
    (s.ph = .prgErase → s.instrAt = some (.erase s.dialect)) ∧
    (s.ph = .prgPage → ∃ a : Addr, a.toNat = s.cfg.prg.val ∧ s.instrAt = some (.pgm a s.dialect)) ∧
    (s.ph = .vfyCrc → ∃ a : Addr, a.toNat = s.cfg.prg.val ∧ s.instrAt = some (.crc a)) ∧
    (s.ph = .ppbEnt1 → s.instrAt = some .ent1) ∧ (s.ph = .ppbEnt2 → s.instrAt = some .ent2) ∧
    (s.ph = .ppbEnt3 → s.instrAt = some .ent3) ∧
    (s.ph = .ppbCmd1 → s.ppbop = .eraseAll → s.instrAt = some (.ppbe1 s.cfg.st)) ∧
    (s.ph = .ppbCmd1 → s.ppbop = .writeOne → s.instrAt = some (.ppbw1 s.cfg.st)) ∧
    (s.ph = .ppbCmd1 → s.ppbop = .readOne → s.instrAt = some (.ppbr1 s.cfg.st)) ∧
    (s.ph = .ppbCmd2 → s.ppbop = .eraseAll → s.instrAt = some (.ppbe2 s.cfg.st)) ∧
    (s.ph = .ppbCmd2 → s.ppbop = .writeOne → s.instrAt = some (.ppbw2 s.cfg.st)) ∧
    (s.ph = .ppbSlo → s.instrAt = some (.seclo s.cfg.slo s.sect)) ∧
    (s.ph = .ppbShi → s.instrAt = some (.sechi s.cfg.shi)) ∧
    (s.ph ∈ [.pollRd1, .pollRd2, .pollRd3, .pollRd4, .ppbStat] → s.instrAt = some (.r s.cfg.st)) ∧
    (s.ph ∈ [.pollSleep, .pollSettle] → s.instrAt = some .poll) ∧
    (s.ph ∈ [.vfyHead, .vfyNext] → s.instrAt = some .verifyPass) ∧
    (s.ph = .ppbExit1 → s.instrAt = some (.exit1 (s.cfg.ex.getD s.cfg.st))) ∧
    (s.ph = .ppbExit2 → s.instrAt = some (.exit2 (s.cfg.ex.getD s.cfg.st)))

/-- R162, R178, R253: an answered `RST` goes to the loop head; that of the verify pass also sets `BANK` to 0. That
any answer counts as `ok` is log 4. -/
def Obligations.ResetTransaction : Prop :=
  ∀ s : State, s.reply ≠ .wait →
    (s.ph = .prgReset ∨ s.ph = .prgRreset →
      exec .rst s = .next { s.answered .reset .ok with ph := .prgHead }) ∧
    (s.ph = .vfyReset → exec .rst s = .next { s.answered .reset .ok with bank := 0, ph := .vfyHead })

/-- R146, R166, R204, R255, R167: the four writes of a bank select carry the translator's bytes of the bank to be
selected, each at its own address, and where each phase goes. -/
def Obligations.BankSelectWrites : Prop :=
  ∀ (s : State) (b : BitVec 11) (r : SelectRegs) (rd : BitVec 16), s.reply = .ok rd →
    b.toNat = s.selected % 2048 → translateBank s.cfg b s.dialect = some r →
    (s.ph.selIndex = some 0 →
      (∃ d : Sel0Data, d.dialect = s.dialect ∧ d.byte = r.r0) ∧
      ∀ d : Sel0Data, d.dialect = s.dialect → d.byte = r.r0 → exec (.sel0 s.cfg.reg0 d) s =
        .next { s.answered (.write s.cfg.reg0 r.r0) .ok with
          ph := match s.ph with | .prgSel0 => .prgSel1 | .vfySel0 => .vfySel1 | _ => .ppbSel1 }) ∧
    (s.ph.selIndex = some 1 →
      (∃ d : Sel1Data, d.dialect = s.dialect ∧ d.byte = r.r1) ∧
      ∀ d : Sel1Data, d.dialect = s.dialect → d.byte = r.r1 → exec (.sel1 s.cfg.reg1 d) s =
        .next { s.answered (.write s.cfg.reg1 r.r1) .ok with
          ph := match s.ph with | .prgSel1 => .prgSel2 | .vfySel1 => .vfySel2 | _ => .ppbSel2 }) ∧
    (s.ph.selIndex = some 2 →
      r.r2 = 0x00 ∧ exec (.sel2 s.cfg.reg2) s =
        .next { s.answered (.write s.cfg.reg2 0x00) .ok with
          ph := match s.ph with | .prgSel2 => .prgSel3 | .vfySel2 => .vfySel3 | _ => .ppbSel3 }) ∧
    (s.ph.selIndex = some 3 →
      (∃ d : Sel3Data, d.dialect = s.dialect ∧ d.byte = r.r3) ∧
      ∀ d : Sel3Data, d.dialect = s.dialect → d.byte = r.r3 → exec (.sel3 s.cfg.reg3 d) s =
        .next { s.answered (.write s.cfg.reg3 r.r3) .ok with
          ph := match s.ph with
            | .prgSel3 =>
              if s.bank.toNat % 8 = 0 then .prgErase
              else if s.dialect = .scrambled then .prgHs1 else .prgPage
            | .vfySel3 => if s.dialect = .scrambled then .vfyHs1 else .vfyCrc
            | _ => .ppbEnt1 })

/-- R168, R167, R292: an answered `ERASE m=DIALECT` goes to the half-bank select or to the page; its progress event
is raised when it is issued (once: log 5). -/
def Obligations.EraseTransaction : Prop :=
  ∀ (s : State) (rd : BitVec 16), s.reply = .ok rd → s.ph = .prgErase →
    exec (.erase s.dialect) s =
      .next { s.answered (.eraseSector s.dialect) .ok with
        ph := if s.dialect = .scrambled then .prgHs1 else .prgPage
        events := if s.outstanding = none then
            .erase (BitVec.ofNat 8 (s.bank.toNat / 8)) :: s.events
          else s.events }

/-- R149, R169, R256: the two half-bank select writes are those the configuration gives for `BANK mod 8`. -/
def Obligations.HalfBankSelectWrites : Prop :=
  ∀ (s : State) (c : Scrambled) (u : Fin 8) (rd : BitVec 16), s.reply = .ok rd → s.dialect = .scrambled →
    s.cfg.scr = some c → u.val = s.bank.toNat % 8 →
    let p := c.hsel[u]
    (s.ph = .prgHs1 → exec (.hs1 p.1.1 p.1.2) s =
      .next { s.answered (.write p.1.1 p.1.2) .ok with ph := .prgHs2 }) ∧
    (s.ph = .prgHs2 → exec (.hs2 p.2.1 p.2.2) s =
      .next { s.answered (.write p.2.1 p.2.2) .ok with ph := .prgPage }) ∧
    (s.ph = .vfyHs1 → exec (.hs1 p.1.1 p.1.2) s =
      .next { s.answered (.write p.1.1 p.1.2) .ok with ph := .vfyHs2 }) ∧
    (s.ph = .vfyHs2 → exec (.hs2 p.2.1 p.2.2) s =
      .next { s.answered (.write p.2.1 p.2.2) .ok with ph := .vfyCrc })

/-- R170, R171, R125: one page program of the whole of `slice(BANK)` at `PRG`, `ISPRG` = 1; then the lock
decision. -/
def Obligations.PageTransaction : Prop :=
  ∀ (s : State) (a : Addr) (bytes : List Byte) (rd : BitVec 16), s.reply = .ok rd → s.ph = .prgPage →
    a.toNat = s.cfg.prg.val → s.slice = some bytes →
    exec (.pgm a s.dialect) s =
      .next { s.answered (.programPage a bytes s.dialect true) .ok with ph := .prgLock }

/-- R321 (its second sentence): a page program or a CRC of a bank with an unwritten byte is refused. -/
def Obligations.UnwrittenImageRefused : Prop :=
  ∀ (s : State) (a : Addr), a.toNat = s.cfg.prg.val → s.slice = none →
    (s.ph = .prgPage → exec (.pgm a s.dialect) s = .refused .imageByteUnwritten) ∧
    (s.ph = .vfyCrc → exec (.crc a) s = .refused .imageByteUnwritten)

/-- R257, R258: the expected CRC, the device's, and the comparison: on to the next bank, or the mismatch with the
bank recorded and the command aborted (R280). -/
def Obligations.CrcTransaction : Prop :=
  ∀ (s : State) (a : Addr) (bytes : List Byte) (rd : BitVec 16), s.reply = .ok rd → s.ph = .vfyCrc →
    a.toNat = s.cfg.prg.val → s.slice = some bytes →
    (crc16 s.cfg bytes = rd → exec (.crc a) s =
      .next { s.answered (.readCrc16 a 0x4000) (.okCrc rd) with mmExp := rd, mmAct := rd, ph := .vfyNext }) ∧
    (crc16 s.cfg bytes ≠ rd → exec (.crc a) s =
      .next { s.answered (.readCrc16 a 0x4000) (.okCrc rd) with
        mmExp := crc16 s.cfg bytes, mmAct := rd, mmBank := s.bank.extractLsb' 0 11
        result := .verificationMismatch, ppbop := .none, busy := false, done := true, ph := .idle })

/-- R205: command-set entry. -/
def Obligations.CommandSetEntry : Prop :=
  ∀ (s : State) (rd : BitVec 16), s.reply = .ok rd →
    (s.ph = .ppbEnt1 → exec .ent1 s = .next { s.answered (.write 0x8AAA 0xAA) .ok with ph := .ppbEnt2 }) ∧
    (s.ph = .ppbEnt2 → exec .ent2 s = .next { s.answered (.write 0x8555 0x55) .ok with ph := .ppbEnt3 }) ∧
    (s.ph = .ppbEnt3 → exec .ent3 s = .next { s.answered (.write 0x8AAA 0xC0) .ok with ph := .ppbCmd1 })

/-- R207, R208, R209: the command cycles of erase-all, write-one and read-one, all at the status address; R210: the
two sector bytes of write-one, `SECT` and 0x00: for sectors other than 0 that encoding is the spec's decision D17,
which the claim takes as a premise. -/
def Obligations.PpbCommandCycles : Prop :=
  ∀ (s : State) (rd : BitVec 16), s.reply = .ok rd →
    (s.ph = .ppbCmd1 → s.ppbop = .eraseAll → exec (.ppbe1 s.cfg.st) s =
      .next { s.answered (.write s.cfg.st 0x80) .ok with ph := .ppbCmd2 }) ∧
    (s.ph = .ppbCmd2 → s.ppbop = .eraseAll → exec (.ppbe2 s.cfg.st) s =
      .next { s.answered (.write s.cfg.st 0x30) .ok with ph := .pollRd1 }) ∧
    (s.ph = .ppbCmd1 → s.ppbop = .writeOne → exec (.ppbw1 s.cfg.st) s =
      .next { s.answered (.write s.cfg.st 0xA0) .ok with ph := .ppbCmd2 }) ∧
    (s.ph = .ppbCmd2 → s.ppbop = .writeOne → exec (.ppbw2 s.cfg.st) s =
      .next { s.answered (.write s.cfg.st 0x00) .ok with ph := .ppbSlo }) ∧
    (s.ph = .ppbCmd1 → s.ppbop = .readOne → exec (.ppbr1 s.cfg.st) s =
      .next { s.answered (.write s.cfg.st 0xC0) .ok with ph := .ppbStat }) ∧
    (s.ph = .ppbSlo → exec (.seclo s.cfg.slo s.sect) s =
      .next { s.answered (.write s.cfg.slo s.sect) .ok with ph := .ppbShi }) ∧
    (s.ph = .ppbShi → exec (.sechi s.cfg.shi) s =
      .next { s.answered (.write s.cfg.shi 0x00) .ok with ph := .pollRd1 })

/-- R214: command-set exit, at `EX`, which is `ST` unless configured otherwise. -/
def Obligations.CommandSetExit : Prop :=
  ∀ (s : State) (a : Addr) (rd : BitVec 16), s.reply = .ok rd → (s.cfg.ex = some a ∨ s.cfg.ex = none ∧ a = s.cfg.st) →
    (s.ph = .ppbExit1 → exec (.exit1 a) s = .next { s.answered (.write a 0x90) .ok with ph := .ppbExit2 }) ∧
    (s.ph = .ppbExit2 → exec (.exit2 a) s = .next { s.answered (.write a 0x00) .ok with ph := .ppbRet })

/-- R122, R97: the write a phase issues is its bus command cycle; as either row it completes alike, whatever the
answer, and once answered `ok` it has sent that one byte to that address. -/
def Obligations.WriteIsItsCycle : Prop :=
  ∀ (s : State) (i : Instr) (a : Addr) (x : Byte), s.instrAt = some i → i.cycle = some (a, x) →
    ∃ t, exec (.w a x) s = .next t ∧ exec i s = .next t ∧
      ∀ rd, s.reply = .ok rd → t.outstanding = none ∧ t.trace = ⟨.write a x, .ok⟩ :: s.trace

/-- R211, R212, R213: the status read: which register takes the byte, what bit 0 decides. A failed check aborts
(R280) after the byte has been kept. That read-one leaves `SV` as it was is the model's reading (log 11). -/
def Obligations.StatusCheck : Prop :=
  ∀ (s : State) (rd : BitVec 16), s.reply = .ok rd → s.ph = .ppbStat →
    let b : Byte := rd.extractLsb' 0 8
    let u := s.answered (.read s.cfg.st 1) (.okByte b)
    (s.ppbop = .readOne → exec (.r s.cfg.st) s = .next { u with rdata := b, ph := .ppbExit1 }) ∧
    (s.ppbop = .eraseAll → b.getLsbD 0 = true →
      exec (.r s.cfg.st) s = .next { u with sv := b, ph := .ppbExit1 }) ∧
    (s.ppbop = .eraseAll → b.getLsbD 0 = false → exec (.r s.cfg.st) s =
      .next { u with
        sv := b, result := .ppbEraseFailed, ppbop := .none, busy := false, done := true, ph := .idle }) ∧
    (s.ppbop = .writeOne → b.getLsbD 0 = false →
      exec (.r s.cfg.st) s = .next { u with sv := b, ph := .ppbExit1 }) ∧
    (s.ppbop = .writeOne → b.getLsbD 0 = true → exec (.r s.cfg.st) s =
      .next { u with
        sv := b, result := .ppbWriteFailed, ppbop := .none, busy := false, done := true, ph := .idle })

/-- R232, R233, R234, R237, R238, R239: the four reads of the poll and its two decisions. -/
def Obligations.PollReads : Prop :=
  ∀ (s : State) (rd : BitVec 16), s.reply = .ok rd →
    let b : Byte := rd.extractLsb' 0 8
    let u := s.answered (.read s.cfg.st 1) (.okByte b)
    (s.ph = .pollRd1 → exec (.r s.cfg.st) s = .next { u with s1 := b, ph := .pollRd2 }) ∧
    (s.ph = .pollRd2 → exec (.r s.cfg.st) s = .next { u with
      s2 := b
      ph := if s.s1.getLsbD 6 = b.getLsbD 6 then .pollSettle
        else if s.s1.getLsbD 5 = false then .pollSleep else .pollRd3 }) ∧
    (s.ph = .pollRd3 → exec (.r s.cfg.st) s = .next { u with s1 := b, ph := .pollRd4 }) ∧
    (s.ph = .pollRd4 → s.s1.getLsbD 6 = b.getLsbD 6 →
      exec (.r s.cfg.st) s = .next { u with s2 := b, ph := .pollSettle }) ∧
    (s.ph = .pollRd4 → s.s1.getLsbD 6 ≠ b.getLsbD 6 → exec (.r s.cfg.st) s =
      .next { u with
        s2 := b, result := .ppbTimeout, ppbop := .none, busy := false, done := true, ph := .idle })

/-- R236, R240 and R230: the two delays change the phase only; in a read phase `POLL` is that phase's read, which
completes whatever the answer. -/
def Obligations.PollRow : Prop :=
  ∀ s : State,
    (s.ph = .pollSleep → exec .poll s = .next { s with ph := .pollRd1 }) ∧
    (s.ph = .pollSettle → exec .poll s = .next { s with ph := .ppbStat }) ∧
    (s.ph ∈ [.pollRd1, .pollRd2, .pollRd3, .pollRd4] →
      ∃ t, exec .poll s = .next t ∧ exec (.r s.cfg.st) s = .next t)

/-- R254, R260, R259: the internal phases of the verify pass as the row `VERIFY.PASS`; in its transaction phases it
is the row the phase names. -/
def Obligations.VerifyPassRow : Prop :=
  ∀ s : State,
    (s.ph = .vfyHead → exec .verifyPass s = .next (
      if s.bankcount.toNat ≤ s.bank.toNat then
        { s with mmBank := 0, mmExp := 0, mmAct := 0, result := .ok, busy := false, done := true, ph := .idle }
      else if s.badmap.getLsbD (s.bank.toNat / 8) = true then { s with bank := s.bank + 8 }
      else { s with events := .verify s.bank s.bankcount :: s.events, ph := .vfySel0 })) ∧
    (s.ph = .vfyNext → exec .verifyPass s = .next { s with bank := s.bank + 1, ph := .vfyHead }) ∧
    (∀ i, s.ph.routine = 2 → s.instrAt = some i → exec .verifyPass s = exec i s)

/-! ### The internal phases, errors, the retry -/

/-- R160, R161, R280: the checks of `PRG_CHECK`, the illegal `BANKCOUNT` before the capacity. -/
def Obligations.ProgramChecks : Prop :=
  ∀ s u : State, s.sequencerTurn u → u.ph = .prgCheck →
    step s = .next (
      if u.bankcount.toNat = 0 ∨ u.bankcount.toNat > 2048 then
        { u with result := .illegalCommand, ppbop := .none, busy := false, done := true, ph := .idle }
      else if u.bankcount.toNat * 0x4000 > u.capacity.toNat then
        { u with result := .capacityExceeded, ppbop := .none, busy := false, done := true, ph := .idle }
      else { u with ph := .prgReset })

/-- R163, R164, R179: `PRG_HEAD`: the end of the image, the skip of a bad sector, the next bank with its progress
event. -/
def Obligations.ProgramHead : Prop :=
  ∀ s u : State, s.sequencerTurn u → u.ph = .prgHead →
    step s = .next (
      if u.bankcount.toNat ≤ u.bank.toNat then
        if u.verify = true then { u with ph := .vfyReset }
        else { u with result := .ok, busy := false, done := true, ph := .idle }
      else if u.badmap.getLsbD (u.bank.toNat / 8) = true then { u with bank := u.bank + 8 }
      else { u with events := .bank u.bank u.bankcount :: u.events, ph := .prgSel0 })

/-- R172, R173, R175: the lock decision, entering the lock, and the next bank. -/
def Obligations.LockAndNext : Prop :=
  ∀ s u : State, s.sequencerTurn u →
    (u.ph = .prgLock → step s = .next (
      if u.bank.toNat % 8 = 7 ∨ u.bank.toNat + 1 = u.bankcount.toNat then
        { u with sect := BitVec.ofNat 8 (u.bank.toNat / 8), ppbop := .writeOne, ph := .ppbSel0 }
      else { u with ph := .prgNext })) ∧
    (u.ph = .prgNext → step s = .next { u with bank := u.bank + 1, ph := .prgHead })

/-- R176, R177, R282: the retry: the error is counted, the third is fatal with no rewind, otherwise the rewind to
the sector's first bank and the way to `RST`. -/
def Obligations.RetryDecision : Prop :=
  ∀ s u : State, s.sequencerTurn u → u.ph = .prgRetry →
    step s = .next (
      if u.errcnt + 1 = 3 then
        { u with
          errcnt := 3, result := .busOperationFailed, ppbop := .none, busy := false, done := true, ph := .idle }
      else
        { u with
          errcnt := u.errcnt + 1, ppbop := .none, bank := BitVec.ofNat 12 (u.bank.toNat / 8 * 8)
          ph := .prgRreset })

/-- R215, R174: `PPB_RET` returns to PROGRAM's loop from its lock, and otherwise ends the command. -/
def Obligations.PpbReturn : Prop :=
  ∀ s u : State, s.sequencerTurn u → u.ph = .ppbRet →
    step s = .next (
      if u.op = .program then { u with ppbop := .none, ph := .prgNext }
      else { u with ppbop := .none, result := .ok, busy := false, done := true, ph := .idle })

/-- R283, R176, R261, R272: a `fail` answer, by routine and `OP`. The failed transaction writes no register.
`MM_EXP` keeps its value or is the slice's CRC, computed before the device's is asked for (log 10); the erase event
is raised when the erase is issued, so in this step unless it was outstanding already (R168, R292, log 5). -/
def Obligations.FailureDispatch : Prop :=
  ∀ (s : State) (i : Instr) (req : BusReq), s.reply = .fail → s.instrAt = some i → i ≠ .rst →
    s.request = some req →
    let events := if s.ph = .prgErase ∧ s.outstanding = none then
        .erase (BitVec.ofNat 8 (s.bank.toNat / 8)) :: s.events
      else s.events
    ∃ mmExp : BitVec 16,
      (mmExp = s.mmExp ∨ s.ph = .vfyCrc ∧ ∃ bytes, s.slice = some bytes ∧ mmExp = crc16 s.cfg bytes) ∧
      exec i s = .next (
        if s.ph.routine ≠ 2 ∧ s.op = .program then
          { s.answered req .fail with mmExp := mmExp, events := events, ph := .prgRetry }
        else
          { s.answered req .fail with
            mmExp := mmExp, events := events
            result := .busOperationFailed, ppbop := .none, busy := false, done := true, ph := .idle })

/-- R128: while the environment does not answer, the sequencer stays in the issuing phase with the transaction
outstanding, and no register of the block changes but `MM_EXP`, as in `FailureDispatch` (log 10); the erase event
is raised in the step that issues the erase. -/
def Obligations.UnansweredHolds : Prop :=
  ∀ (s : State) (i : Instr) (req : BusReq), s.reply = .wait → s.instrAt = some i → s.request = some req →
    let events := if s.ph = .prgErase ∧ s.outstanding = none then
        .erase (BitVec.ofNat 8 (s.bank.toNat / 8)) :: s.events
      else s.events
    ∃ mmExp : BitVec 16,
      (mmExp = s.mmExp ∨ s.ph = .vfyCrc ∧ ∃ bytes, s.slice = some bytes ∧ mmExp = crc16 s.cfg bytes) ∧
      exec i s = .next { s.hold req with mmExp := mmExp, events := events }

/-- R280: the abort: what it writes, and that everything else stays. -/
def Obligations.AbortFrame : Prop :=
  (∀ (s : State) (e : Result), s.raise e =
    { s with result := e, ppbop := .none, busy := false, done := true, ph := .idle }) ∧
  (∀ s : State, s.raiseMismatch =
    { s with
      mmBank := s.bank.extractLsb' 0 11
      result := .verificationMismatch, ppbop := .none, busy := false, done := true, ph := .idle })

/-! ### The step and the decoder -/

/-- R91, R30, R12: a step runs the decoded command word where the host writes one; where the host has nothing to do
or passes (log 6), the sequencer moves: the row of the phase, an internal phase, and in `IDLE` nothing, until a
command word is written (R310). -/
def Obligations.StepRunsInstruction : Prop :=
  (∀ (s : State) (i : Instr) (word : BitVec 16) (rest : List HostOp), i.wf = true →
    encode i = some (.cmd16 word) → s.inbox = .write 0 (word.setWidth 256) :: rest →
    step s = exec i { s with inbox := rest }) ∧
  (∀ s u : State, s.sequencerTurn u →
    step s = runPhase u ∧
    (∀ i : Instr, u.instrAt = some i → step s = exec i u) ∧
    (u.ph = .idle → step s = .next u))

/-- R97, R127: what a phase issues is a well-formed instruction, and its own word decodes to it in that phase. The
word of a bus request is in the model's packed layout (log 13). -/
def Obligations.IssuedRowsDecode : Prop :=
  ∀ (s : State) (i : Instr) (k : Code), s.instrAt = some i → encode i = some k →
    i.wf = true ∧ decode s.cycleContext k = .ok i

/-- Words written out from the encodings of R92, R96 and R97, and what they are. -/
def Obligations.WordsDecode : Prop :=
  decodeCommand 0x0302 = .ppbWrite .direct false 3 ∧ decodeCommand 0x001C = .program .scrambled true 0 ∧
  decodeCommand 0x0080 = .illegalRsv 0 .direct false 4 0 ∧
  decodeRequest 0x00AA8AAA02 = .ok (.w 0x8AAA 0xAA) ∧ decodeRequest 0x0100000004 = .ok (.erase .scrambled) ∧
  decodeRequest 0x0000000007 = .error .reservedKind ∧
  decodeCycle ⟨.ppbEnt2, .writeOne, .direct⟩ 0x855555 = .ok .ent2 ∧
  decodeCycle ⟨.prgSel0, .none, .direct⟩ 0x500041 = .ok (.sel0 0x5000 (.direct 0 1)) ∧
  decodeCycle ⟨.ppbShi, .writeOne, .direct⟩ 0x123400 = .ok (.sechi 0x1234) ∧
  decodeCycle ⟨.ppbExit2, .writeOne, .direct⟩ 0x123400 = .ok (.exit2 0x1234)

/-- Decoding the word of a well-formed instruction, in a phase that issues it where it is a bus command cycle,
gives the instruction back, with every operand. The word of a bus request is in the model's packed layout
(log 13). -/
def Obligations.DecodeEncode : Prop :=
  ∀ (c : CycleContext) (i : Instr) (k : Code), i.wf = true → (i.cycle = none ∨ i.cycleIn c = true) →
    encode i = some k → decode c k = .ok i

/-- R92, R94: every 16-bit word is a command word of exactly one row: what it decodes to is well formed and encodes
back to it, and no other well-formed instruction has that word. That ignored fields are operands is log 12. -/
def Obligations.EncodeDecodeCommand : Prop :=
  ∀ word : BitVec 16, isCommand (decodeCommand word) = true ∧ (decodeCommand word).wf = true ∧
    encode (decodeCommand word) = some (.cmd16 word) ∧
    ∀ i : Instr, i.wf = true → encode i = some (.cmd16 word) → i = decodeCommand word

/-! ### Rules about the whole machine -/

/-- The invariant holds after reset. -/
def Obligations.ResetGood : Prop :=
  State.reset.Good

/-- R165, R32, R22, R25, R70, R177 and their like: every step keeps the invariant, whatever the host and the
environment do. -/
def Obligations.StepKeepsGood : Prop :=
  ∀ s t : State, s.Good → step s = .next t → t.Good

/-- R76, R321, R323: from a good state no step faults; a step that is no next state is one of the two refusals the
rules name, and with no host operation and every byte written that the phase reads it has a next state. -/
def Obligations.GoodStepsAreNext : Prop :=
  ∀ s : State, s.Good →
    isFault (step s) = false ∧
    (s.inbox = [] → (s.ph = .prgPage ∨ s.ph = .vfyCrc → s.slice ≠ none) → isNext (step s) = true)

/-- R76: whether the machine has a step never depends on the environment's answers. -/
def Obligations.NextWhateverTheAnswers : Prop :=
  ∀ (s : State) (script : List Reply) (tick : Nat),
    isNext (step { s with script := script, oracleTick := tick }) = isNext (step s)

/-- R164, R254: on every run from a good state, with a bank in hand (select, erase, page, lock, CRC) that bank is
one of the image and its sector is not bad, and a lock acts on that same sector. -/
def Obligations.BadSectorsNeverTargeted : Prop :=
  ∀ (n : Nat) (s t : State), s.Good → Host.Core.run Sys2Proof.core n s = .next t → t.bankInHand →
    t.bank.toNat < t.bankcount.toNat ∧ t.badmap.getLsbD (t.bank.toNat / 8) = false ∧
    (t.ph.routine = 3 → t.sect.toNat = t.bank.toNat / 8)

/-- R22, R23, R323: while a command runs and no hardware reset comes, only `PRG_RETRY` changes the error counter,
by one; the latched operands and the configuration are constant. -/
def Obligations.RunningCommandConstants : Prop :=
  ∀ s t : State, s.busy = true → s.inbox.head? ≠ some .hardwareReset → step s = .next t →
    t.cfg = s.cfg ∧ t.op = s.op ∧ t.dialect = s.dialect ∧ t.verify = s.verify ∧
    t.bankcount = s.bankcount ∧ t.capacity = s.capacity ∧ t.badmap = s.badmap ∧ t.img = s.img ∧
    (t.errcnt = s.errcnt ∨ s.ph = .prgRetry ∧ t.errcnt = s.errcnt + 1)

/-- R61, R127, R123, R125, R126: the requests the block sends: no kind 0 or 7, no address outside the table, reads
of one byte at `ST`, page programs and CRCs of 0x4000 bytes at `PRG`. -/
def Obligations.RequestsOfTheTable : Prop :=
  ∀ (s : State) (req : BusReq), s.request = some req → req.kind ≠ 0 ∧ req.kind ≠ 7 ∧
    match req with
    | .reset => True
    | .write a _ => s.emits a
    | .read a len => s.emits a ∧ a = s.cfg.st ∧ len = 1
    | .eraseSector m => m = s.dialect
    | .programPage a bytes m isPrg =>
      s.emits a ∧ a.toNat = s.cfg.prg.val ∧ bytes.length = 0x4000 ∧ m = s.dialect ∧ isPrg = true
    | .readCrc16 a len => s.emits a ∧ a.toNat = s.cfg.prg.val ∧ len = 0x4000

/-- R70, R127: a step ends at most one transaction, and it is the one the phase sends. -/
def Obligations.OneTransactionPerStep : Prop :=
  ∀ s t : State, s.inbox = [] → step s = .next t →
    t.trace = s.trace ∨ ∃ req ans, s.request = some req ∧ t.trace = ⟨req, ans⟩ :: s.trace

/-- R242: the poll has no bound: for every number of pairs that toggle with DQ5 of the first read clear, the block
reads them all, sleeps after each and is back at the first read, still busy. -/
def Obligations.PollUnbounded : Prop :=
  ∀ (pairs : List (Byte × Byte)) (rest : List Reply) (s : State), s.ph = .pollRd1 → s.inbox = [] →
    (∀ p ∈ pairs, p.1.getLsbD 6 ≠ p.2.getLsbD 6 ∧ p.1.getLsbD 5 = false) →
    s.script = pairs.flatMap (fun p => [.ok (p.1.setWidth 16), .ok (p.2.setWidth 16)]) ++ rest →
    ∃ t, Host.Core.run Sys2Proof.core (3 * pairs.length) s = .next t ∧ t.ph = .pollRd1 ∧ t.busy = s.busy ∧
      t.script = rest ∧ t.trace.length = s.trace.length + 2 * pairs.length

/-- R202: the whole of PPB.READ: on an environment that answers `ok` throughout, a command word written in `IDLE`
ends after 11 transactions, in the rule's order, with the status byte in `RDATA`. -/
def Obligations.PpbReadCommand : Prop :=
  ∀ (s : State) (d : Dialect) (v : Bool) (sec : BitVec 8) (r : SelectRegs)
    (x1 x2 x3 x4 x5 x6 x7 x8 x9 x10 x11 : BitVec 16) (rest : List Reply),
    s.ph = .idle → s.busy = false → s.dialectConfigured d = true →
    translateBank s.cfg (BitVec.ofNat 11 (8 * sec.toNat)) d = some r →
    s.inbox = [.write 0 ((commandWord 3 d v 0 sec).setWidth 256)] →
    s.script = [.ok x1, .ok x2, .ok x3, .ok x4, .ok x5, .ok x6, .ok x7, .ok x8, .ok x9, .ok x10, .ok x11] ++ rest →
    let b : Byte := x9.extractLsb' 0 8
    ∃ t, Host.Core.run Sys2Proof.core 13 s = .next t ∧
      t = { s with
        ph := .idle, busy := false, done := true, result := .ok, rdata := b, op := .read, dialect := d, verify := v
        sect := sec, ppbop := .none, errcnt := 0, bank := 0, mmBank := 0, mmExp := 0, mmAct := 0
        s1 := 0, s2 := 0, sv := 0, outstanding := none, inbox := [], script := rest, trace := t.trace } ∧
      t.trace.reverse = s.trace.reverse ++
        [⟨.write s.cfg.reg0 r.r0, .ok⟩, ⟨.write s.cfg.reg1 r.r1, .ok⟩, ⟨.write s.cfg.reg2 0x00, .ok⟩,
         ⟨.write s.cfg.reg3 r.r3, .ok⟩, ⟨.write 0x8AAA 0xAA, .ok⟩, ⟨.write 0x8555 0x55, .ok⟩,
         ⟨.write 0x8AAA 0xC0, .ok⟩, ⟨.write s.cfg.st 0xC0, .ok⟩, ⟨.read s.cfg.st 1, .okByte b⟩,
         ⟨.write (s.cfg.ex.getD s.cfg.st) 0x90, .ok⟩, ⟨.write (s.cfg.ex.getD s.cfg.st) 0x00, .ok⟩]

/-- R201, R173: the write-one routine, as a command and as PROGRAM's lock alike: on an environment that answers
`ok` throughout and whose first pair is stable, the 16 transactions in the rule's order, up to `PPB_RET`. The sector
bytes of sectors other than 0 are the spec's decision D17, which the claim takes as a premise. -/
def Obligations.WriteOneRoutine : Prop :=
  ∀ (s : State) (r : SelectRegs)
    (x1 x2 x3 x4 x5 x6 x7 x8 x9 x10 x11 x12 x13 x14 x15 x16 : BitVec 16) (rest : List Reply),
    s.ph = .ppbSel0 → s.ppbop = .writeOne → s.inbox = [] →
    translateBank s.cfg (BitVec.ofNat 11 (8 * s.sect.toNat)) s.dialect = some r →
    x12.getLsbD 6 = x13.getLsbD 6 → x14.getLsbD 0 = false →
    s.script = [.ok x1, .ok x2, .ok x3, .ok x4, .ok x5, .ok x6, .ok x7, .ok x8, .ok x9, .ok x10, .ok x11, .ok x12,
      .ok x13, .ok x14, .ok x15, .ok x16] ++ rest →
    let b1 : Byte := x12.extractLsb' 0 8
    let b2 : Byte := x13.extractLsb' 0 8
    let b3 : Byte := x14.extractLsb' 0 8
    ∃ t, Host.Core.run Sys2Proof.core 17 s = .next t ∧
      t = { s with
        ph := .ppbRet, s1 := b1, s2 := b2, sv := b3, outstanding := none, script := rest, trace := t.trace } ∧
      t.trace.reverse = s.trace.reverse ++
        [⟨.write s.cfg.reg0 r.r0, .ok⟩, ⟨.write s.cfg.reg1 r.r1, .ok⟩, ⟨.write s.cfg.reg2 0x00, .ok⟩,
         ⟨.write s.cfg.reg3 r.r3, .ok⟩, ⟨.write 0x8AAA 0xAA, .ok⟩, ⟨.write 0x8555 0x55, .ok⟩,
         ⟨.write 0x8AAA 0xC0, .ok⟩, ⟨.write s.cfg.st 0xA0, .ok⟩, ⟨.write s.cfg.st 0x00, .ok⟩,
         ⟨.write s.cfg.slo s.sect, .ok⟩, ⟨.write s.cfg.shi 0x00, .ok⟩, ⟨.read s.cfg.st 1, .okByte b1⟩,
         ⟨.read s.cfg.st 1, .okByte b2⟩, ⟨.read s.cfg.st 1, .okByte b3⟩,
         ⟨.write (s.cfg.ex.getD s.cfg.st) 0x90, .ok⟩, ⟨.write (s.cfg.ex.getD s.cfg.st) 0x00, .ok⟩]

/-- R200: the erase-all routine: on an environment that answers `ok` throughout, whose first pair is stable and
whose status byte shows the bits erased, the 14 transactions in the rule's order, up to `PPB_RET`. -/
def Obligations.EraseAllRoutine : Prop :=
  ∀ (s : State) (r : SelectRegs)
    (x1 x2 x3 x4 x5 x6 x7 x8 x9 x10 x11 x12 x13 x14 : BitVec 16) (rest : List Reply),
    s.ph = .ppbSel0 → s.ppbop = .eraseAll → s.sect = 0 → s.inbox = [] →
    translateBank s.cfg 0 s.dialect = some r →
    x10.getLsbD 6 = x11.getLsbD 6 → x12.getLsbD 0 = true →
    s.script = [.ok x1, .ok x2, .ok x3, .ok x4, .ok x5, .ok x6, .ok x7, .ok x8, .ok x9, .ok x10, .ok x11, .ok x12,
      .ok x13, .ok x14] ++ rest →
    let b1 : Byte := x10.extractLsb' 0 8
    let b2 : Byte := x11.extractLsb' 0 8
    let b3 : Byte := x12.extractLsb' 0 8
    ∃ t, Host.Core.run Sys2Proof.core 15 s = .next t ∧
      t = { s with
        ph := .ppbRet, s1 := b1, s2 := b2, sv := b3, outstanding := none, script := rest, trace := t.trace } ∧
      t.trace.reverse = s.trace.reverse ++
        [⟨.write s.cfg.reg0 r.r0, .ok⟩, ⟨.write s.cfg.reg1 r.r1, .ok⟩, ⟨.write s.cfg.reg2 0x00, .ok⟩,
         ⟨.write s.cfg.reg3 r.r3, .ok⟩, ⟨.write 0x8AAA 0xAA, .ok⟩, ⟨.write 0x8555 0x55, .ok⟩,
         ⟨.write 0x8AAA 0xC0, .ok⟩, ⟨.write s.cfg.st 0x80, .ok⟩, ⟨.write s.cfg.st 0x30, .ok⟩,
         ⟨.read s.cfg.st 1, .okByte b1⟩, ⟨.read s.cfg.st 1, .okByte b2⟩, ⟨.read s.cfg.st 1, .okByte b3⟩,
         ⟨.write (s.cfg.ex.getD s.cfg.st) 0x90, .ok⟩, ⟨.write (s.cfg.ex.getD s.cfg.st) 0x00, .ok⟩]
end

