-- ==== Sys2Proof/Laws/Encoding.lean ====
section
/-! SUPPORT. The fields of an encoded word: what each extraction of the decoder reads from a word the encoder
assembled. -/

namespace Sys2Proof

section command

variable (opc : BitVec 3) (d : Dialect) (v : Bool) (rsv : BitVec 3) (sec : BitVec 8)

@[simp] theorem commandWord_opc : (commandWord opc d v rsv sec).extractLsb' 0 3 = opc := by
  ext i hi
  simp only [BitVec.getElem_extractLsb']
  show (sec ++ rsv ++ BitVec.ofBool v ++ d.bit ++ opc : BitVec (8 + 3 + 1 + 1 + 3)).getLsbD (0 + i) = _
  simp only [BitVec.getLsbD_append, ← BitVec.getLsbD_eq_getElem]
  repeat' split
  all_goals first | omega | (congr 1; omega)

@[simp] theorem commandWord_dialect : (commandWord opc d v rsv sec).extractLsb' 3 1 = d.bit := by
  ext i hi
  simp only [BitVec.getElem_extractLsb']
  show (sec ++ rsv ++ BitVec.ofBool v ++ d.bit ++ opc : BitVec (8 + 3 + 1 + 1 + 3)).getLsbD (3 + i) = _
  simp only [BitVec.getLsbD_append, ← BitVec.getLsbD_eq_getElem]
  repeat' split
  all_goals first | omega | (congr 1; omega)

@[simp] theorem commandWord_verify : (commandWord opc d v rsv sec)[4] = v := by
  rw [← BitVec.getLsbD_eq_getElem]
  show (sec ++ rsv ++ BitVec.ofBool v ++ d.bit ++ opc : BitVec (8 + 3 + 1 + 1 + 3)).getLsbD 4 = _
  simp only [BitVec.getLsbD_append]
  cases v <;> rfl

@[simp] theorem commandWord_reserved : (commandWord opc d v rsv sec).extractLsb' 5 3 = rsv := by
  ext i hi
  simp only [BitVec.getElem_extractLsb']
  show (sec ++ rsv ++ BitVec.ofBool v ++ d.bit ++ opc : BitVec (8 + 3 + 1 + 1 + 3)).getLsbD (5 + i) = _
  simp only [BitVec.getLsbD_append, ← BitVec.getLsbD_eq_getElem]
  repeat' split
  all_goals first | omega | (congr 1; omega)

@[simp] theorem commandWord_sector : (commandWord opc d v rsv sec).extractLsb' 8 8 = sec := by
  ext i hi
  simp only [BitVec.getElem_extractLsb']
  show (sec ++ rsv ++ BitVec.ofBool v ++ d.bit ++ opc : BitVec (8 + 3 + 1 + 1 + 3)).getLsbD (8 + i) = _
  simp only [BitVec.getLsbD_append, ← BitVec.getLsbD_eq_getElem]
  repeat' split
  all_goals first | omega | (congr 1; omega)

end command

@[simp] theorem Dialect.ofBit_bit (d : Dialect) : Dialect.ofBit d.bit = d := by cases d <;> rfl

@[simp] theorem Dialect.bit_ofBit (b : BitVec 1) : (Dialect.ofBit b).bit = b := by revert b; decide

section request

variable (kind : BitVec 3) (addr : Addr) (data : Byte) (mode : BitVec 1)

@[simp] theorem requestWord_kind : (requestWord kind addr data mode).extractLsb' 0 3 = kind := by
  ext i hi
  simp only [BitVec.getElem_extractLsb']
  show (0#7 ++ mode ++ data ++ addr ++ 0#5 ++ kind : BitVec (7 + 1 + 8 + 16 + 5 + 3)).getLsbD (0 + i) = _
  simp only [BitVec.getLsbD_append, ← BitVec.getLsbD_eq_getElem]
  repeat' split
  all_goals first | omega | (congr 1; omega)

@[simp] theorem requestWord_gap : (requestWord kind addr data mode).extractLsb' 3 5 = 0#5 := by
  ext i hi
  simp only [BitVec.getElem_extractLsb']
  show (0#7 ++ mode ++ data ++ addr ++ 0#5 ++ kind : BitVec (7 + 1 + 8 + 16 + 5 + 3)).getLsbD (3 + i) = _
  simp only [BitVec.getLsbD_append, ← BitVec.getLsbD_eq_getElem]
  repeat' split
  all_goals first | omega | (congr 1; omega)

@[simp] theorem requestWord_addr : (requestWord kind addr data mode).extractLsb' 8 16 = addr := by
  ext i hi
  simp only [BitVec.getElem_extractLsb']
  show (0#7 ++ mode ++ data ++ addr ++ 0#5 ++ kind : BitVec (7 + 1 + 8 + 16 + 5 + 3)).getLsbD (8 + i) = _
  simp only [BitVec.getLsbD_append, ← BitVec.getLsbD_eq_getElem]
  repeat' split
  all_goals first | omega | (congr 1; omega)

@[simp] theorem requestWord_data : (requestWord kind addr data mode).extractLsb' 24 8 = data := by
  ext i hi
  simp only [BitVec.getElem_extractLsb']
  show (0#7 ++ mode ++ data ++ addr ++ 0#5 ++ kind : BitVec (7 + 1 + 8 + 16 + 5 + 3)).getLsbD (24 + i) = _
  simp only [BitVec.getLsbD_append, ← BitVec.getLsbD_eq_getElem]
  repeat' split
  all_goals first | omega | (congr 1; omega)

@[simp] theorem requestWord_mode : (requestWord kind addr data mode).extractLsb' 32 1 = mode := by
  ext i hi
  simp only [BitVec.getElem_extractLsb']
  show (0#7 ++ mode ++ data ++ addr ++ 0#5 ++ kind : BitVec (7 + 1 + 8 + 16 + 5 + 3)).getLsbD (32 + i) = _
  simp only [BitVec.getLsbD_append, ← BitVec.getLsbD_eq_getElem]
  repeat' split
  all_goals first | omega | (congr 1; omega)

@[simp] theorem requestWord_top : (requestWord kind addr data mode).extractLsb' 33 7 = 0#7 := by
  ext i hi
  simp only [BitVec.getElem_extractLsb']
  show (0#7 ++ mode ++ data ++ addr ++ 0#5 ++ kind : BitVec (7 + 1 + 8 + 16 + 5 + 3)).getLsbD (33 + i) = _
  simp only [BitVec.getLsbD_append, ← BitVec.getLsbD_eq_getElem]
  repeat' split
  all_goals first | omega | (congr 1; omega)

end request

section cycle

variable (a : Addr) (d : Byte)

@[simp] theorem cycleWord_addr : (cycleWord a d).extractLsb' 8 16 = a := by
  ext i hi
  simp only [BitVec.getElem_extractLsb']
  show (a ++ d : BitVec (16 + 8)).getLsbD (8 + i) = _
  simp only [BitVec.getLsbD_append, ← BitVec.getLsbD_eq_getElem]
  repeat' split
  all_goals first | omega | (congr 1; omega)

@[simp] theorem cycleWord_data : (cycleWord a d).extractLsb' 0 8 = d := by
  ext i hi
  simp only [BitVec.getElem_extractLsb']
  show (a ++ d : BitVec (16 + 8)).getLsbD (0 + i) = _
  simp only [BitVec.getLsbD_append, ← BitVec.getLsbD_eq_getElem]
  repeat' split
  all_goals first | omega | (congr 1; omega)

end cycle

end Sys2Proof
end

