-- ==== Sys2Proof/Laws/Flags.lean ====
section
/-! SUPPORT. The decisions on registers and status bytes with the numbers of R7 in them: what each condition says of
the register values, in every configuration. -/

namespace Sys2Proof.Machine

@[simp] theorem sleep_eq (d : Nat) (s : State) : s.sleep d = s := rfl

/-! ### Banks and sectors -/

theorem sectorOf_eq (c : Config) (b : BitVec 12) : sectorOf c b = BitVec.ofNat 8 (b.toNat / 8) := by
  simp [sectorOf]

theorem unitOf_toNat (c : Config) (b : BitVec 12) : (unitOf c b).toNat = b.toNat % 8 := by
  simp [unitOf]

theorem unitOf_eq_zero (c : Config) (b : BitVec 12) : unitOf c b = 0 ↔ b.toNat % 8 = 0 := by
  rw [← BitVec.toNat_inj, unitOf_toNat]; rfl

theorem sectorStart_eq (c : Config) (b : BitVec 12) : sectorStart c b = BitVec.ofNat 12 (b.toNat / 8 * 8) := by
  simp [sectorStart]

theorem sectorStart_toNat (c : Config) (b : BitVec 12) : (sectorStart c b).toNat = b.toNat / 8 * 8 := by
  have := b.isLt
  rw [sectorStart_eq, BitVec.toNat_ofNat]
  omega

theorem sectorStart_le (c : Config) (b : BitVec 12) : (sectorStart c b).toNat ≤ b.toNat := by
  rw [sectorStart_toNat]; omega

theorem sectorStart_sector (c : Config) (b : BitVec 12) : (sectorStart c b).toNat / 8 = b.toNat / 8 := by
  rw [sectorStart_toNat]; omega

theorem sectorStart_unit (c : Config) (b : BitVec 12) : unitOf c (sectorStart c b) = 0 := by
  rw [unitOf_eq_zero, sectorStart_toNat]; omega

theorem sectorBad_eq (s : State) : s.sectorBad = s.badmap.getLsbD (s.bank.toNat / 8) := by
  simp [State.sectorBad]

theorem imageDone_iff (s : State) : s.imageDone = true ↔ s.bankcount.toNat ≤ s.bank.toNat := by
  simp [State.imageDone]

theorem atSectorStart_iff (s : State) : s.atSectorStart = true ↔ s.bank.toNat % 8 = 0 := by
  simp only [State.atSectorStart, decide_eq_true_eq, unitOf_eq_zero]

theorem lockDue_iff (s : State) :
    s.lockDue = true ↔ s.bank.toNat % 8 = 7 ∨ s.bank.toNat + 1 = s.bankcount.toNat := by
  simp [State.lockDue]

theorem bankcountIllegal_iff (s : State) :
    s.bankcountIllegal = true ↔ s.bankcount.toNat = 0 ∨ 2048 < s.bankcount.toNat := by
  simp [State.bankcountIllegal]

theorem capacityExceeded_iff (s : State) :
    s.capacityExceeded = true ↔ s.capacity.toNat < s.bankcount.toNat * 0x4000 := by
  simp [State.capacityExceeded]

/-- Past a bank of a good sector, a bad sector is met only at its first bank (R165). -/
theorem bad_sector_next {s : State} (hb : s.sectorBad = false) (hn : s.bank.toNat < 2048)
    (h : s.badmap.getLsbD ((s.bank + 1).toNat / 8) = true) : unitOf s.cfg (s.bank + 1) = 0 := by
  by_contra hu
  rw [unitOf_eq_zero] at hu
  rw [BitVec.toNat_add] at *
  rw [show (s.bank.toNat + (1 : BitVec 12).toNat) % 2 ^ 12 / 8 = s.bank.toNat / 8 by simp at *; omega] at h
  rw [sectorBad_eq, h] at hb
  exact absurd hb (by decide)

/-! ### Status bytes -/

theorem dq6Toggled_iff (c : Config) (a b : Byte) : dq6Toggled c a b = true ↔ a.getLsbD 6 ≠ b.getLsbD 6 := by
  simp [dq6Toggled]

theorem pollDecision_eq (c : Config) (a b : Byte) :
    pollDecision c a b =
      if a.getLsbD 6 = b.getLsbD 6 then .pollSettle else if a.getLsbD 5 = false then .pollSleep else .pollRd3 := by
  simp only [pollDecision, dq6Toggled_iff, Config.dq5_eq]
  by_cases h : a.getLsbD 6 = b.getLsbD 6 <;> cases a.getLsbD 5 <;> simp

/-! ### The slice and the pure functions -/

theorem slice_eq (s : State) :
    s.slice =
      if Memory.covers s.img (s.bank.toNat * 0x4000) 0x4000 then
        some (Memory.bytes s.img (s.bank.toNat * 0x4000) 0x4000)
      else none := by
  simp only [State.slice, Config.bankBytes_eq]

theorem outbankOf_eq (c : Config) (b : BitVec 11) : outbankOf c b = BitVec.ofNat 8 (b.toNat / 8) := by
  simp only [outbankOf, Config.bankBytes_eq, Config.halfBankBytes_eq, Config.halfBanksPerOutbank_eq]
  congr 1; omega

theorem crcShift_eq (k : Config) (c : BitVec 16) :
    crcShift k c = if c.getLsbD 0 then (c >>> 1) ^^^ 0xA001 else c >>> 1 := by
  simp only [crcShift, Config.crcPoly_eq]

end Sys2Proof.Machine
end

