-- ==== Sys2Proof/Laws/Memory.lean ====
section
/-! SUPPORT. The laws of the image memory: read after write, a write leaves every other index alone, every write
keeps the canonical form, and a slice is the bytes read one by one. -/

namespace Sys2Proof.Machine.Memory

theorem read_write_same (m : List Host.Cell) (a : Nat) (b : Byte) : read (write m a b) a = some b := by
  induction m with
  | nil => simp [write, read]
  | cons c m ih =>
    obtain ⟨k, x⟩ := c
    simp only [write]
    split
    · simp [read]
    · split
      · simp [read]
      · rename_i h
        simp [read, Ne.symm h, ih]

theorem read_write_other (m : List Host.Cell) {a a' : Nat} (b : Byte) (h : a' ≠ a) :
    read (write m a b) a' = read m a' := by
  induction m with
  | nil => simp [write, read, Ne.symm h]
  | cons c m ih =>
    obtain ⟨k, x⟩ := c
    simp only [write]
    split
    · simp [read, Ne.symm h]
    · split
      · rename_i hk
        subst hk
        simp [read, Ne.symm h]
      · simp [read, ih]

theorem mem_write {m : List Host.Cell} {a : Nat} {b : Byte} {c : Host.Cell} (h : c ∈ write m a b) :
    c = (a, b) ∨ c ∈ m := by
  induction m with
  | nil => simpa [write] using h
  | cons d m ih =>
    obtain ⟨k, x⟩ := d
    simp only [write] at h
    split at h
    · simpa using h
    · split at h
      · rcases List.mem_cons.1 h with h | h
        · exact .inl h
        · exact .inr (List.mem_cons_of_mem _ h)
      · rcases List.mem_cons.1 h with h | h
        · exact .inr (h ▸ List.mem_cons_self)
        · exact (ih h).imp_right (List.mem_cons_of_mem _)

theorem write_wf {m : List Host.Cell} {a : Nat} (b : Byte) (h : wf m) (ha : a < Config.imageBytes) :
    wf (write m a b) := by
  refine ⟨?_, fun c hc => (mem_write hc).elim (fun e => e ▸ ha) (h.2 c)⟩
  have hs := h.1
  clear h
  induction m with
  | nil => simp [write]
  | cons d m ih =>
    obtain ⟨k, x⟩ := d
    rw [List.pairwise_cons] at hs
    simp only [write]
    split
    · rename_i hk
      refine List.pairwise_cons.2 ⟨fun c hc => ?_, List.pairwise_cons.2 hs⟩
      rcases List.mem_cons.1 hc with rfl | hc
      · exact hk
      · exact hk.trans (hs.1 c hc)
    · split
      · rename_i hk
        subst hk
        exact List.pairwise_cons.2 hs
      · rename_i h1 h2
        refine List.pairwise_cons.2 ⟨fun c hc => ?_, ih hs.2⟩
        rcases mem_write hc with rfl | hc
        · show k < a; omega
        · exact hs.1 c hc

/-- Below its first index a canonical memory lists nothing. -/
theorem read_lt {k : Nat} {x : Byte} {m : List Host.Cell} {a : Nat}
    (h : List.Pairwise (fun c d : Host.Cell => c.1 < d.1) ((k, x) :: m)) (ha : a < k) :
    read ((k, x) :: m) a = none := by
  induction m generalizing k x with
  | nil => simp [read, Nat.ne_of_gt ha]
  | cons c m ih =>
    obtain ⟨l, y⟩ := c
    have hkl : k < l := (List.pairwise_cons.1 h).1 (l, y) List.mem_cons_self
    rw [read, if_neg (Nat.ne_of_gt ha)]
    exact ih (List.pairwise_cons.1 h).2 (ha.trans hkl)

/-- In a canonical memory the walk answers what reading byte by byte answers. -/
theorem covers_iff {m : List Host.Cell} (h : m.Pairwise (fun c d => c.1 < d.1)) (a n : Nat) :
    covers m a n = true ↔ ∀ i < n, (read m (a + i)).isSome := by
  induction m generalizing a n with
  | nil =>
    cases n with
    | zero => simp [covers]
    | succ n => simp only [covers, Bool.false_eq_true, false_iff]; intro H; simpa [read] using H 0 (by omega)
  | cons c m ih =>
    obtain ⟨k, x⟩ := c
    cases n with
    | zero => simp [covers]
    | succ n =>
      simp only [covers]
      have hm := (List.pairwise_cons.1 h).2
      split
      · rename_i hk
        rw [ih hm]
        refine forall₂_congr fun i _ => ?_
        rw [read, if_neg (by omega)]
      · split
        · rename_i hk
          subst hk
          rw [ih hm]
          constructor
          · intro H i hi
            rcases Nat.eq_zero_or_pos i with rfl | hp
            · simp [read]
            · rw [read, if_neg (by omega)]
              have := H (i - 1) (by omega)
              rwa [show k + 1 + (i - 1) = k + i by omega] at this
          · intro H i hi
            have := H (i + 1) (by omega)
            rw [read, if_neg (by omega)] at this
            rwa [show k + 1 + i = k + (i + 1) by omega]
        · simp only [Bool.false_eq_true, false_iff]
          intro H
          have := H 0 (by omega)
          rw [Nat.add_zero, read_lt h (by omega)] at this
          simp at this

/-- A covered slice has its length. -/
theorem bytes_length (m : List Host.Cell) (a n : Nat) (h : covers m a n = true) : (bytes m a n).length = n := by
  induction m generalizing a n with
  | nil => cases n <;> simp_all [covers, bytes]
  | cons c m ih =>
    obtain ⟨k, x⟩ := c
    cases n with
    | zero => simp [bytes]
    | succ n =>
      simp only [covers] at h
      simp only [bytes]
      split at h
      · rw [if_pos ‹_›]; exact ih a _ h
      · rw [if_neg ‹_›]
        split at h
        · rw [if_pos ‹_›]; simpa using ih _ _ h
        · simp at h

/-- Byte `i` of a covered slice is the byte read at its index (R65). -/
theorem bytes_getElem? {m : List Host.Cell} (hw : m.Pairwise (fun c d => c.1 < d.1)) (a n : Nat)
    (h : covers m a n = true) : ∀ i < n, (bytes m a n)[i]? = read m (a + i) := by
  induction m generalizing a n with
  | nil => cases n <;> simp_all [covers]
  | cons c m ih =>
    obtain ⟨k, x⟩ := c
    cases n with
    | zero => simp
    | succ n =>
      have hm := (List.pairwise_cons.1 hw).2
      intro i hi
      simp only [covers] at h
      simp only [bytes]
      split at h
      · rw [if_pos ‹_›, ih hm a _ h i hi, read, if_neg (by omega)]
      · rw [if_neg ‹_›]
        split at h
        · rename_i hk
          rw [if_pos hk]
          subst hk
          rcases Nat.eq_zero_or_pos i with rfl | hp
          · simp [read]
          · obtain ⟨j, rfl⟩ : ∃ j, i = j + 1 := ⟨i - 1, by omega⟩
            rw [List.getElem?_cons_succ, ih hm _ _ h j (by omega), read, if_neg (by omega)]
            congr 1; omega
        · simp at h

end Sys2Proof.Machine.Memory
end

