-- ==== Sys2Proof/Laws/State.lean ====
section
/-! SUPPORT. For each named update of the state, one lemma per field: what the update leaves there. No later
proof unfolds a record update. -/

namespace Sys2Proof.Machine

variable (s : State)

/-! ### `goto` -/

@[simp] theorem goto_cfg (p : Phase) : (s.goto p).cfg = s.cfg := rfl
@[simp] theorem goto_ph (p : Phase) : (s.goto p).ph = p := rfl
@[simp] theorem goto_busy (p : Phase) : (s.goto p).busy = s.busy := rfl
@[simp] theorem goto_done (p : Phase) : (s.goto p).done = s.done := rfl
@[simp] theorem goto_result (p : Phase) : (s.goto p).result = s.result := rfl
@[simp] theorem goto_errcnt (p : Phase) : (s.goto p).errcnt = s.errcnt := rfl
@[simp] theorem goto_bank (p : Phase) : (s.goto p).bank = s.bank := rfl
@[simp] theorem goto_op (p : Phase) : (s.goto p).op = s.op := rfl
@[simp] theorem goto_dialect (p : Phase) : (s.goto p).dialect = s.dialect := rfl
@[simp] theorem goto_verify (p : Phase) : (s.goto p).verify = s.verify := rfl
@[simp] theorem goto_sect (p : Phase) : (s.goto p).sect = s.sect := rfl
@[simp] theorem goto_ppbop (p : Phase) : (s.goto p).ppbop = s.ppbop := rfl
@[simp] theorem goto_s1 (p : Phase) : (s.goto p).s1 = s.s1 := rfl
@[simp] theorem goto_s2 (p : Phase) : (s.goto p).s2 = s.s2 := rfl
@[simp] theorem goto_sv (p : Phase) : (s.goto p).sv = s.sv := rfl
@[simp] theorem goto_rdata (p : Phase) : (s.goto p).rdata = s.rdata := rfl
@[simp] theorem goto_mmBank (p : Phase) : (s.goto p).mmBank = s.mmBank := rfl
@[simp] theorem goto_mmExp (p : Phase) : (s.goto p).mmExp = s.mmExp := rfl
@[simp] theorem goto_mmAct (p : Phase) : (s.goto p).mmAct = s.mmAct := rfl
@[simp] theorem goto_bankcount (p : Phase) : (s.goto p).bankcount = s.bankcount := rfl
@[simp] theorem goto_capacity (p : Phase) : (s.goto p).capacity = s.capacity := rfl
@[simp] theorem goto_badmap (p : Phase) : (s.goto p).badmap = s.badmap := rfl
@[simp] theorem goto_img (p : Phase) : (s.goto p).img = s.img := rfl
@[simp] theorem goto_outstanding (p : Phase) : (s.goto p).outstanding = s.outstanding := rfl
@[simp] theorem goto_inbox (p : Phase) : (s.goto p).inbox = s.inbox := rfl
@[simp] theorem goto_hostRd (p : Phase) : (s.goto p).hostRd = s.hostRd := rfl
@[simp] theorem goto_script (p : Phase) : (s.goto p).script = s.script := rfl
@[simp] theorem goto_oracleTick (p : Phase) : (s.goto p).oracleTick = s.oracleTick := rfl
@[simp] theorem goto_trace (p : Phase) : (s.goto p).trace = s.trace := rfl
@[simp] theorem goto_events (p : Phase) : (s.goto p).events = s.events := rfl
@[simp] theorem goto_probe (p : Phase) : (s.goto p).probe = s.probe := rfl

/-! ### `finish` -/

@[simp] theorem finish_cfg : (s.finish).cfg = s.cfg := rfl
@[simp] theorem finish_ph : (s.finish).ph = .idle := rfl
@[simp] theorem finish_busy : (s.finish).busy = false := rfl
@[simp] theorem finish_done : (s.finish).done = true := rfl
@[simp] theorem finish_result : (s.finish).result = .ok := rfl
@[simp] theorem finish_errcnt : (s.finish).errcnt = s.errcnt := rfl
@[simp] theorem finish_bank : (s.finish).bank = s.bank := rfl
@[simp] theorem finish_op : (s.finish).op = s.op := rfl
@[simp] theorem finish_dialect : (s.finish).dialect = s.dialect := rfl
@[simp] theorem finish_verify : (s.finish).verify = s.verify := rfl
@[simp] theorem finish_sect : (s.finish).sect = s.sect := rfl
@[simp] theorem finish_ppbop : (s.finish).ppbop = s.ppbop := rfl
@[simp] theorem finish_s1 : (s.finish).s1 = s.s1 := rfl
@[simp] theorem finish_s2 : (s.finish).s2 = s.s2 := rfl
@[simp] theorem finish_sv : (s.finish).sv = s.sv := rfl
@[simp] theorem finish_rdata : (s.finish).rdata = s.rdata := rfl
@[simp] theorem finish_mmBank : (s.finish).mmBank = s.mmBank := rfl
@[simp] theorem finish_mmExp : (s.finish).mmExp = s.mmExp := rfl
@[simp] theorem finish_mmAct : (s.finish).mmAct = s.mmAct := rfl
@[simp] theorem finish_bankcount : (s.finish).bankcount = s.bankcount := rfl
@[simp] theorem finish_capacity : (s.finish).capacity = s.capacity := rfl
@[simp] theorem finish_badmap : (s.finish).badmap = s.badmap := rfl
@[simp] theorem finish_img : (s.finish).img = s.img := rfl
@[simp] theorem finish_outstanding : (s.finish).outstanding = s.outstanding := rfl
@[simp] theorem finish_inbox : (s.finish).inbox = s.inbox := rfl
@[simp] theorem finish_hostRd : (s.finish).hostRd = s.hostRd := rfl
@[simp] theorem finish_script : (s.finish).script = s.script := rfl
@[simp] theorem finish_oracleTick : (s.finish).oracleTick = s.oracleTick := rfl
@[simp] theorem finish_trace : (s.finish).trace = s.trace := rfl
@[simp] theorem finish_events : (s.finish).events = s.events := rfl
@[simp] theorem finish_probe : (s.finish).probe = s.probe := rfl

/-! ### `raise` -/

@[simp] theorem raise_cfg (e : Result) : (s.raise e).cfg = s.cfg := rfl
@[simp] theorem raise_ph (e : Result) : (s.raise e).ph = .idle := rfl
@[simp] theorem raise_busy (e : Result) : (s.raise e).busy = false := rfl
@[simp] theorem raise_done (e : Result) : (s.raise e).done = true := rfl
@[simp] theorem raise_result (e : Result) : (s.raise e).result = e := rfl
@[simp] theorem raise_errcnt (e : Result) : (s.raise e).errcnt = s.errcnt := rfl
@[simp] theorem raise_bank (e : Result) : (s.raise e).bank = s.bank := rfl
@[simp] theorem raise_op (e : Result) : (s.raise e).op = s.op := rfl
@[simp] theorem raise_dialect (e : Result) : (s.raise e).dialect = s.dialect := rfl
@[simp] theorem raise_verify (e : Result) : (s.raise e).verify = s.verify := rfl
@[simp] theorem raise_sect (e : Result) : (s.raise e).sect = s.sect := rfl
@[simp] theorem raise_ppbop (e : Result) : (s.raise e).ppbop = .none := rfl
@[simp] theorem raise_s1 (e : Result) : (s.raise e).s1 = s.s1 := rfl
@[simp] theorem raise_s2 (e : Result) : (s.raise e).s2 = s.s2 := rfl
@[simp] theorem raise_sv (e : Result) : (s.raise e).sv = s.sv := rfl
@[simp] theorem raise_rdata (e : Result) : (s.raise e).rdata = s.rdata := rfl
@[simp] theorem raise_mmBank (e : Result) : (s.raise e).mmBank = s.mmBank := rfl
@[simp] theorem raise_mmExp (e : Result) : (s.raise e).mmExp = s.mmExp := rfl
@[simp] theorem raise_mmAct (e : Result) : (s.raise e).mmAct = s.mmAct := rfl
@[simp] theorem raise_bankcount (e : Result) : (s.raise e).bankcount = s.bankcount := rfl
@[simp] theorem raise_capacity (e : Result) : (s.raise e).capacity = s.capacity := rfl
@[simp] theorem raise_badmap (e : Result) : (s.raise e).badmap = s.badmap := rfl
@[simp] theorem raise_img (e : Result) : (s.raise e).img = s.img := rfl
@[simp] theorem raise_outstanding (e : Result) : (s.raise e).outstanding = s.outstanding := rfl
@[simp] theorem raise_inbox (e : Result) : (s.raise e).inbox = s.inbox := rfl
@[simp] theorem raise_hostRd (e : Result) : (s.raise e).hostRd = s.hostRd := rfl
@[simp] theorem raise_script (e : Result) : (s.raise e).script = s.script := rfl
@[simp] theorem raise_oracleTick (e : Result) : (s.raise e).oracleTick = s.oracleTick := rfl
@[simp] theorem raise_trace (e : Result) : (s.raise e).trace = s.trace := rfl
@[simp] theorem raise_events (e : Result) : (s.raise e).events = s.events := rfl
@[simp] theorem raise_probe (e : Result) : (s.raise e).probe = s.probe := rfl

/-! ### `raiseEvent` -/

@[simp] theorem raiseEvent_cfg (e : Event) : (s.raiseEvent e).cfg = s.cfg := rfl
@[simp] theorem raiseEvent_ph (e : Event) : (s.raiseEvent e).ph = s.ph := rfl
@[simp] theorem raiseEvent_busy (e : Event) : (s.raiseEvent e).busy = s.busy := rfl
@[simp] theorem raiseEvent_done (e : Event) : (s.raiseEvent e).done = s.done := rfl
@[simp] theorem raiseEvent_result (e : Event) : (s.raiseEvent e).result = s.result := rfl
@[simp] theorem raiseEvent_errcnt (e : Event) : (s.raiseEvent e).errcnt = s.errcnt := rfl
@[simp] theorem raiseEvent_bank (e : Event) : (s.raiseEvent e).bank = s.bank := rfl
@[simp] theorem raiseEvent_op (e : Event) : (s.raiseEvent e).op = s.op := rfl
@[simp] theorem raiseEvent_dialect (e : Event) : (s.raiseEvent e).dialect = s.dialect := rfl
@[simp] theorem raiseEvent_verify (e : Event) : (s.raiseEvent e).verify = s.verify := rfl
@[simp] theorem raiseEvent_sect (e : Event) : (s.raiseEvent e).sect = s.sect := rfl
@[simp] theorem raiseEvent_ppbop (e : Event) : (s.raiseEvent e).ppbop = s.ppbop := rfl
@[simp] theorem raiseEvent_s1 (e : Event) : (s.raiseEvent e).s1 = s.s1 := rfl
@[simp] theorem raiseEvent_s2 (e : Event) : (s.raiseEvent e).s2 = s.s2 := rfl
@[simp] theorem raiseEvent_sv (e : Event) : (s.raiseEvent e).sv = s.sv := rfl
@[simp] theorem raiseEvent_rdata (e : Event) : (s.raiseEvent e).rdata = s.rdata := rfl
@[simp] theorem raiseEvent_mmBank (e : Event) : (s.raiseEvent e).mmBank = s.mmBank := rfl
@[simp] theorem raiseEvent_mmExp (e : Event) : (s.raiseEvent e).mmExp = s.mmExp := rfl
@[simp] theorem raiseEvent_mmAct (e : Event) : (s.raiseEvent e).mmAct = s.mmAct := rfl
@[simp] theorem raiseEvent_bankcount (e : Event) : (s.raiseEvent e).bankcount = s.bankcount := rfl
@[simp] theorem raiseEvent_capacity (e : Event) : (s.raiseEvent e).capacity = s.capacity := rfl
@[simp] theorem raiseEvent_badmap (e : Event) : (s.raiseEvent e).badmap = s.badmap := rfl
@[simp] theorem raiseEvent_img (e : Event) : (s.raiseEvent e).img = s.img := rfl
@[simp] theorem raiseEvent_outstanding (e : Event) : (s.raiseEvent e).outstanding = s.outstanding := rfl
@[simp] theorem raiseEvent_inbox (e : Event) : (s.raiseEvent e).inbox = s.inbox := rfl
@[simp] theorem raiseEvent_hostRd (e : Event) : (s.raiseEvent e).hostRd = s.hostRd := rfl
@[simp] theorem raiseEvent_script (e : Event) : (s.raiseEvent e).script = s.script := rfl
@[simp] theorem raiseEvent_oracleTick (e : Event) : (s.raiseEvent e).oracleTick = s.oracleTick := rfl
@[simp] theorem raiseEvent_trace (e : Event) : (s.raiseEvent e).trace = s.trace := rfl
@[simp] theorem raiseEvent_events (e : Event) : (s.raiseEvent e).events = e :: s.events := rfl
@[simp] theorem raiseEvent_probe (e : Event) : (s.raiseEvent e).probe = s.probe := rfl

/-! ### `enterPpb` -/

@[simp] theorem enterPpb_cfg (o : PpbOp) : (s.enterPpb o).cfg = s.cfg := rfl
@[simp] theorem enterPpb_ph (o : PpbOp) : (s.enterPpb o).ph = .ppbSel0 := rfl
@[simp] theorem enterPpb_busy (o : PpbOp) : (s.enterPpb o).busy = s.busy := rfl
@[simp] theorem enterPpb_done (o : PpbOp) : (s.enterPpb o).done = s.done := rfl
@[simp] theorem enterPpb_result (o : PpbOp) : (s.enterPpb o).result = s.result := rfl
@[simp] theorem enterPpb_errcnt (o : PpbOp) : (s.enterPpb o).errcnt = s.errcnt := rfl
@[simp] theorem enterPpb_bank (o : PpbOp) : (s.enterPpb o).bank = s.bank := rfl
@[simp] theorem enterPpb_op (o : PpbOp) : (s.enterPpb o).op = s.op := rfl
@[simp] theorem enterPpb_dialect (o : PpbOp) : (s.enterPpb o).dialect = s.dialect := rfl
@[simp] theorem enterPpb_verify (o : PpbOp) : (s.enterPpb o).verify = s.verify := rfl
@[simp] theorem enterPpb_sect (o : PpbOp) : (s.enterPpb o).sect = s.sect := rfl
@[simp] theorem enterPpb_ppbop (o : PpbOp) : (s.enterPpb o).ppbop = o := rfl
@[simp] theorem enterPpb_s1 (o : PpbOp) : (s.enterPpb o).s1 = s.s1 := rfl
@[simp] theorem enterPpb_s2 (o : PpbOp) : (s.enterPpb o).s2 = s.s2 := rfl
@[simp] theorem enterPpb_sv (o : PpbOp) : (s.enterPpb o).sv = s.sv := rfl
@[simp] theorem enterPpb_rdata (o : PpbOp) : (s.enterPpb o).rdata = s.rdata := rfl
@[simp] theorem enterPpb_mmBank (o : PpbOp) : (s.enterPpb o).mmBank = s.mmBank := rfl
@[simp] theorem enterPpb_mmExp (o : PpbOp) : (s.enterPpb o).mmExp = s.mmExp := rfl
@[simp] theorem enterPpb_mmAct (o : PpbOp) : (s.enterPpb o).mmAct = s.mmAct := rfl
@[simp] theorem enterPpb_bankcount (o : PpbOp) : (s.enterPpb o).bankcount = s.bankcount := rfl
@[simp] theorem enterPpb_capacity (o : PpbOp) : (s.enterPpb o).capacity = s.capacity := rfl
@[simp] theorem enterPpb_badmap (o : PpbOp) : (s.enterPpb o).badmap = s.badmap := rfl
@[simp] theorem enterPpb_img (o : PpbOp) : (s.enterPpb o).img = s.img := rfl
@[simp] theorem enterPpb_outstanding (o : PpbOp) : (s.enterPpb o).outstanding = s.outstanding := rfl
@[simp] theorem enterPpb_inbox (o : PpbOp) : (s.enterPpb o).inbox = s.inbox := rfl
@[simp] theorem enterPpb_hostRd (o : PpbOp) : (s.enterPpb o).hostRd = s.hostRd := rfl
@[simp] theorem enterPpb_script (o : PpbOp) : (s.enterPpb o).script = s.script := rfl
@[simp] theorem enterPpb_oracleTick (o : PpbOp) : (s.enterPpb o).oracleTick = s.oracleTick := rfl
@[simp] theorem enterPpb_trace (o : PpbOp) : (s.enterPpb o).trace = s.trace := rfl
@[simp] theorem enterPpb_events (o : PpbOp) : (s.enterPpb o).events = s.events := rfl
@[simp] theorem enterPpb_probe (o : PpbOp) : (s.enterPpb o).probe = s.probe := rfl

/-! ### `initCommand` -/

@[simp] theorem initCommand_cfg (o : Op) (d : Dialect) (v : Bool) (x : BitVec 8) : (s.initCommand o d v x).cfg = s.cfg := rfl
@[simp] theorem initCommand_ph (o : Op) (d : Dialect) (v : Bool) (x : BitVec 8) : (s.initCommand o d v x).ph = s.ph := rfl
@[simp] theorem initCommand_busy (o : Op) (d : Dialect) (v : Bool) (x : BitVec 8) : (s.initCommand o d v x).busy = true := rfl
@[simp] theorem initCommand_done (o : Op) (d : Dialect) (v : Bool) (x : BitVec 8) : (s.initCommand o d v x).done = false := rfl
@[simp] theorem initCommand_result (o : Op) (d : Dialect) (v : Bool) (x : BitVec 8) : (s.initCommand o d v x).result = .ok := rfl
@[simp] theorem initCommand_errcnt (o : Op) (d : Dialect) (v : Bool) (x : BitVec 8) : (s.initCommand o d v x).errcnt = 0 := rfl
@[simp] theorem initCommand_bank (o : Op) (d : Dialect) (v : Bool) (x : BitVec 8) : (s.initCommand o d v x).bank = 0 := rfl
@[simp] theorem initCommand_op (o : Op) (d : Dialect) (v : Bool) (x : BitVec 8) : (s.initCommand o d v x).op = o := rfl
@[simp] theorem initCommand_dialect (o : Op) (d : Dialect) (v : Bool) (x : BitVec 8) : (s.initCommand o d v x).dialect = d := rfl
@[simp] theorem initCommand_verify (o : Op) (d : Dialect) (v : Bool) (x : BitVec 8) : (s.initCommand o d v x).verify = v := rfl
@[simp] theorem initCommand_sect (o : Op) (d : Dialect) (v : Bool) (x : BitVec 8) : (s.initCommand o d v x).sect = x := rfl
@[simp] theorem initCommand_ppbop (o : Op) (d : Dialect) (v : Bool) (x : BitVec 8) : (s.initCommand o d v x).ppbop = .none := rfl
@[simp] theorem initCommand_s1 (o : Op) (d : Dialect) (v : Bool) (x : BitVec 8) : (s.initCommand o d v x).s1 = 0 := rfl
@[simp] theorem initCommand_s2 (o : Op) (d : Dialect) (v : Bool) (x : BitVec 8) : (s.initCommand o d v x).s2 = 0 := rfl
@[simp] theorem initCommand_sv (o : Op) (d : Dialect) (v : Bool) (x : BitVec 8) : (s.initCommand o d v x).sv = 0 := rfl
@[simp] theorem initCommand_rdata (o : Op) (d : Dialect) (v : Bool) (x : BitVec 8) : (s.initCommand o d v x).rdata = 0 := rfl
@[simp] theorem initCommand_mmBank (o : Op) (d : Dialect) (v : Bool) (x : BitVec 8) : (s.initCommand o d v x).mmBank = 0 := rfl
@[simp] theorem initCommand_mmExp (o : Op) (d : Dialect) (v : Bool) (x : BitVec 8) : (s.initCommand o d v x).mmExp = 0 := rfl
@[simp] theorem initCommand_mmAct (o : Op) (d : Dialect) (v : Bool) (x : BitVec 8) : (s.initCommand o d v x).mmAct = 0 := rfl
@[simp] theorem initCommand_bankcount (o : Op) (d : Dialect) (v : Bool) (x : BitVec 8) : (s.initCommand o d v x).bankcount = s.bankcount := rfl
@[simp] theorem initCommand_capacity (o : Op) (d : Dialect) (v : Bool) (x : BitVec 8) : (s.initCommand o d v x).capacity = s.capacity := rfl
@[simp] theorem initCommand_badmap (o : Op) (d : Dialect) (v : Bool) (x : BitVec 8) : (s.initCommand o d v x).badmap = s.badmap := rfl
@[simp] theorem initCommand_img (o : Op) (d : Dialect) (v : Bool) (x : BitVec 8) : (s.initCommand o d v x).img = s.img := rfl
@[simp] theorem initCommand_outstanding (o : Op) (d : Dialect) (v : Bool) (x : BitVec 8) : (s.initCommand o d v x).outstanding = s.outstanding := rfl
@[simp] theorem initCommand_inbox (o : Op) (d : Dialect) (v : Bool) (x : BitVec 8) : (s.initCommand o d v x).inbox = s.inbox := rfl
@[simp] theorem initCommand_hostRd (o : Op) (d : Dialect) (v : Bool) (x : BitVec 8) : (s.initCommand o d v x).hostRd = s.hostRd := rfl
@[simp] theorem initCommand_script (o : Op) (d : Dialect) (v : Bool) (x : BitVec 8) : (s.initCommand o d v x).script = s.script := rfl
@[simp] theorem initCommand_oracleTick (o : Op) (d : Dialect) (v : Bool) (x : BitVec 8) : (s.initCommand o d v x).oracleTick = s.oracleTick := rfl
@[simp] theorem initCommand_trace (o : Op) (d : Dialect) (v : Bool) (x : BitVec 8) : (s.initCommand o d v x).trace = s.trace := rfl
@[simp] theorem initCommand_events (o : Op) (d : Dialect) (v : Bool) (x : BitVec 8) : (s.initCommand o d v x).events = s.events := rfl
@[simp] theorem initCommand_probe (o : Op) (d : Dialect) (v : Bool) (x : BitVec 8) : (s.initCommand o d v x).probe = s.probe := rfl

/-! ### `drawReply` -/

@[simp] theorem drawReply_cfg : (s.drawReply).cfg = s.cfg := by
  unfold State.drawReply; split <;> rfl
@[simp] theorem drawReply_ph : (s.drawReply).ph = s.ph := by
  unfold State.drawReply; split <;> rfl
@[simp] theorem drawReply_busy : (s.drawReply).busy = s.busy := by
  unfold State.drawReply; split <;> rfl
@[simp] theorem drawReply_done : (s.drawReply).done = s.done := by
  unfold State.drawReply; split <;> rfl
@[simp] theorem drawReply_result : (s.drawReply).result = s.result := by
  unfold State.drawReply; split <;> rfl
@[simp] theorem drawReply_errcnt : (s.drawReply).errcnt = s.errcnt := by
  unfold State.drawReply; split <;> rfl
@[simp] theorem drawReply_bank : (s.drawReply).bank = s.bank := by
  unfold State.drawReply; split <;> rfl
@[simp] theorem drawReply_op : (s.drawReply).op = s.op := by
  unfold State.drawReply; split <;> rfl
@[simp] theorem drawReply_dialect : (s.drawReply).dialect = s.dialect := by
  unfold State.drawReply; split <;> rfl
@[simp] theorem drawReply_verify : (s.drawReply).verify = s.verify := by
  unfold State.drawReply; split <;> rfl
@[simp] theorem drawReply_sect : (s.drawReply).sect = s.sect := by
  unfold State.drawReply; split <;> rfl
@[simp] theorem drawReply_ppbop : (s.drawReply).ppbop = s.ppbop := by
  unfold State.drawReply; split <;> rfl
@[simp] theorem drawReply_s1 : (s.drawReply).s1 = s.s1 := by
  unfold State.drawReply; split <;> rfl
@[simp] theorem drawReply_s2 : (s.drawReply).s2 = s.s2 := by
  unfold State.drawReply; split <;> rfl
@[simp] theorem drawReply_sv : (s.drawReply).sv = s.sv := by
  unfold State.drawReply; split <;> rfl
@[simp] theorem drawReply_rdata : (s.drawReply).rdata = s.rdata := by
  unfold State.drawReply; split <;> rfl
@[simp] theorem drawReply_mmBank : (s.drawReply).mmBank = s.mmBank := by
  unfold State.drawReply; split <;> rfl
@[simp] theorem drawReply_mmExp : (s.drawReply).mmExp = s.mmExp := by
  unfold State.drawReply; split <;> rfl
@[simp] theorem drawReply_mmAct : (s.drawReply).mmAct = s.mmAct := by
  unfold State.drawReply; split <;> rfl
@[simp] theorem drawReply_bankcount : (s.drawReply).bankcount = s.bankcount := by
  unfold State.drawReply; split <;> rfl
@[simp] theorem drawReply_capacity : (s.drawReply).capacity = s.capacity := by
  unfold State.drawReply; split <;> rfl
@[simp] theorem drawReply_badmap : (s.drawReply).badmap = s.badmap := by
  unfold State.drawReply; split <;> rfl
@[simp] theorem drawReply_img : (s.drawReply).img = s.img := by
  unfold State.drawReply; split <;> rfl
@[simp] theorem drawReply_outstanding : (s.drawReply).outstanding = s.outstanding := by
  unfold State.drawReply; split <;> rfl
@[simp] theorem drawReply_inbox : (s.drawReply).inbox = s.inbox := by
  unfold State.drawReply; split <;> rfl
@[simp] theorem drawReply_hostRd : (s.drawReply).hostRd = s.hostRd := by
  unfold State.drawReply; split <;> rfl
@[simp] theorem drawReply_script : (s.drawReply).script = s.script.tail := by
  unfold State.drawReply; split <;> simp_all
@[simp] theorem drawReply_trace : (s.drawReply).trace = s.trace := by
  unfold State.drawReply; split <;> rfl
@[simp] theorem drawReply_events : (s.drawReply).events = s.events := by
  unfold State.drawReply; split <;> rfl
@[simp] theorem drawReply_probe : (s.drawReply).probe = s.probe := by
  unfold State.drawReply; split <;> rfl

/-! ### `hold` -/

@[simp] theorem hold_cfg (q : BusReq) : (s.hold q).cfg = s.cfg := drawReply_cfg s
@[simp] theorem hold_ph (q : BusReq) : (s.hold q).ph = s.ph := drawReply_ph s
@[simp] theorem hold_busy (q : BusReq) : (s.hold q).busy = s.busy := drawReply_busy s
@[simp] theorem hold_done (q : BusReq) : (s.hold q).done = s.done := drawReply_done s
@[simp] theorem hold_result (q : BusReq) : (s.hold q).result = s.result := drawReply_result s
@[simp] theorem hold_errcnt (q : BusReq) : (s.hold q).errcnt = s.errcnt := drawReply_errcnt s
@[simp] theorem hold_bank (q : BusReq) : (s.hold q).bank = s.bank := drawReply_bank s
@[simp] theorem hold_op (q : BusReq) : (s.hold q).op = s.op := drawReply_op s
@[simp] theorem hold_dialect (q : BusReq) : (s.hold q).dialect = s.dialect := drawReply_dialect s
@[simp] theorem hold_verify (q : BusReq) : (s.hold q).verify = s.verify := drawReply_verify s
@[simp] theorem hold_sect (q : BusReq) : (s.hold q).sect = s.sect := drawReply_sect s
@[simp] theorem hold_ppbop (q : BusReq) : (s.hold q).ppbop = s.ppbop := drawReply_ppbop s
@[simp] theorem hold_s1 (q : BusReq) : (s.hold q).s1 = s.s1 := drawReply_s1 s
@[simp] theorem hold_s2 (q : BusReq) : (s.hold q).s2 = s.s2 := drawReply_s2 s
@[simp] theorem hold_sv (q : BusReq) : (s.hold q).sv = s.sv := drawReply_sv s
@[simp] theorem hold_rdata (q : BusReq) : (s.hold q).rdata = s.rdata := drawReply_rdata s
@[simp] theorem hold_mmBank (q : BusReq) : (s.hold q).mmBank = s.mmBank := drawReply_mmBank s
@[simp] theorem hold_mmExp (q : BusReq) : (s.hold q).mmExp = s.mmExp := drawReply_mmExp s
@[simp] theorem hold_mmAct (q : BusReq) : (s.hold q).mmAct = s.mmAct := drawReply_mmAct s
@[simp] theorem hold_bankcount (q : BusReq) : (s.hold q).bankcount = s.bankcount := drawReply_bankcount s
@[simp] theorem hold_capacity (q : BusReq) : (s.hold q).capacity = s.capacity := drawReply_capacity s
@[simp] theorem hold_badmap (q : BusReq) : (s.hold q).badmap = s.badmap := drawReply_badmap s
@[simp] theorem hold_img (q : BusReq) : (s.hold q).img = s.img := drawReply_img s
@[simp] theorem hold_outstanding (q : BusReq) : (s.hold q).outstanding = some q := rfl
@[simp] theorem hold_inbox (q : BusReq) : (s.hold q).inbox = s.inbox := drawReply_inbox s
@[simp] theorem hold_hostRd (q : BusReq) : (s.hold q).hostRd = s.hostRd := drawReply_hostRd s
@[simp] theorem hold_script (q : BusReq) : (s.hold q).script = s.script.tail := drawReply_script s
@[simp] theorem hold_oracleTick (q : BusReq) : (s.hold q).oracleTick = s.drawReply.oracleTick := rfl
@[simp] theorem hold_trace (q : BusReq) : (s.hold q).trace = s.trace := drawReply_trace s
@[simp] theorem hold_events (q : BusReq) : (s.hold q).events = s.events := drawReply_events s
@[simp] theorem hold_probe (q : BusReq) : (s.hold q).probe = s.probe := drawReply_probe s

/-! ### `answered` -/

@[simp] theorem answered_cfg (q : BusReq) (a : Answer) : (s.answered q a).cfg = s.cfg := drawReply_cfg s
@[simp] theorem answered_ph (q : BusReq) (a : Answer) : (s.answered q a).ph = s.ph := drawReply_ph s
@[simp] theorem answered_busy (q : BusReq) (a : Answer) : (s.answered q a).busy = s.busy := drawReply_busy s
@[simp] theorem answered_done (q : BusReq) (a : Answer) : (s.answered q a).done = s.done := drawReply_done s
@[simp] theorem answered_result (q : BusReq) (a : Answer) : (s.answered q a).result = s.result := drawReply_result s
@[simp] theorem answered_errcnt (q : BusReq) (a : Answer) : (s.answered q a).errcnt = s.errcnt := drawReply_errcnt s
@[simp] theorem answered_bank (q : BusReq) (a : Answer) : (s.answered q a).bank = s.bank := drawReply_bank s
@[simp] theorem answered_op (q : BusReq) (a : Answer) : (s.answered q a).op = s.op := drawReply_op s
@[simp] theorem answered_dialect (q : BusReq) (a : Answer) : (s.answered q a).dialect = s.dialect := drawReply_dialect s
@[simp] theorem answered_verify (q : BusReq) (a : Answer) : (s.answered q a).verify = s.verify := drawReply_verify s
@[simp] theorem answered_sect (q : BusReq) (a : Answer) : (s.answered q a).sect = s.sect := drawReply_sect s
@[simp] theorem answered_ppbop (q : BusReq) (a : Answer) : (s.answered q a).ppbop = s.ppbop := drawReply_ppbop s
@[simp] theorem answered_s1 (q : BusReq) (a : Answer) : (s.answered q a).s1 = s.s1 := drawReply_s1 s
@[simp] theorem answered_s2 (q : BusReq) (a : Answer) : (s.answered q a).s2 = s.s2 := drawReply_s2 s
@[simp] theorem answered_sv (q : BusReq) (a : Answer) : (s.answered q a).sv = s.sv := drawReply_sv s
@[simp] theorem answered_rdata (q : BusReq) (a : Answer) : (s.answered q a).rdata = s.rdata := drawReply_rdata s
@[simp] theorem answered_mmBank (q : BusReq) (a : Answer) : (s.answered q a).mmBank = s.mmBank := drawReply_mmBank s
@[simp] theorem answered_mmExp (q : BusReq) (a : Answer) : (s.answered q a).mmExp = s.mmExp := drawReply_mmExp s
@[simp] theorem answered_mmAct (q : BusReq) (a : Answer) : (s.answered q a).mmAct = s.mmAct := drawReply_mmAct s
@[simp] theorem answered_bankcount (q : BusReq) (a : Answer) : (s.answered q a).bankcount = s.bankcount := drawReply_bankcount s
@[simp] theorem answered_capacity (q : BusReq) (a : Answer) : (s.answered q a).capacity = s.capacity := drawReply_capacity s
@[simp] theorem answered_badmap (q : BusReq) (a : Answer) : (s.answered q a).badmap = s.badmap := drawReply_badmap s
@[simp] theorem answered_img (q : BusReq) (a : Answer) : (s.answered q a).img = s.img := drawReply_img s
@[simp] theorem answered_outstanding (q : BusReq) (a : Answer) : (s.answered q a).outstanding = none := rfl
@[simp] theorem answered_inbox (q : BusReq) (a : Answer) : (s.answered q a).inbox = s.inbox := drawReply_inbox s
@[simp] theorem answered_hostRd (q : BusReq) (a : Answer) : (s.answered q a).hostRd = s.hostRd := drawReply_hostRd s
@[simp] theorem answered_script (q : BusReq) (a : Answer) : (s.answered q a).script = s.script.tail := drawReply_script s
@[simp] theorem answered_oracleTick (q : BusReq) (a : Answer) : (s.answered q a).oracleTick = s.drawReply.oracleTick := rfl
@[simp] theorem answered_trace (q : BusReq) (a : Answer) : (s.answered q a).trace = ⟨q, a⟩ :: s.trace := rfl
@[simp] theorem answered_events (q : BusReq) (a : Answer) : (s.answered q a).events = s.events := drawReply_events s
@[simp] theorem answered_probe (q : BusReq) (a : Answer) : (s.answered q a).probe = s.probe := drawReply_probe s

end Sys2Proof.Machine
end

