-- ==== Sys2Proof/Laws/Transact.lean ====
section
/-! SUPPORT. One bus transaction: everything it can do, by the environment's answer; the failure dispatch; a bus
command cycle in the phase that issues it. -/

namespace Sys2Proof.Machine

/-- Drawing an answer changes the environment's two fields only. -/
theorem drawReply_eq (s : State) :
    s.drawReply =
      { s with
        script := s.script.tail
        oracleTick := if s.script = [] then s.oracleTick + 1 else s.oracleTick } := by
  unfold State.drawReply
  cases s.script <;> simp

theorem transact_wait {s : State} (h : s.reply = .wait) (req : BusReq) (ok : BitVec 16 → State → State)
    (fail : State → State) : s.transact req ok fail = s.hold req := by
  simp only [State.transact, h]

theorem transact_fail {s : State} (h : s.reply = .fail) (req : BusReq) (ok : BitVec 16 → State → State)
    (fail : State → State) : s.transact req ok fail = fail (s.answered req .fail) := by
  simp only [State.transact, h]

theorem transact_ok {s : State} {rd : BitVec 16} (h : s.reply = .ok rd) (req : BusReq)
    (ok : BitVec 16 → State → State) (fail : State → State) :
    s.transact req ok fail = ok rd (s.answered req (req.okAnswer rd)) := by
  simp only [State.transact, h]

theorem transactReset_wait {s : State} (h : s.reply = .wait) (ok : State → State) :
    s.transactReset ok = s.hold .reset := by
  simp only [State.transactReset, h]

theorem transactReset_answered {s : State} (h : s.reply ≠ .wait) (ok : State → State) :
    s.transactReset ok = ok (s.answered .reset .ok) := by
  unfold State.transactReset
  split
  · contradiction
  all_goals rfl

/-- PROGRAM outside the verify pass: the failure is retried. -/
theorem failDispatch_retry {s : State} (ho : s.op = .program) (hr : s.ph.routine ≠ 2) :
    s.failDispatch = s.goto .prgRetry := by
  unfold State.failDispatch
  split
  case h_8 => simp only [ho, if_true]
  all_goals rename_i h; exact absurd (by rw [h]; decide) hr

/-- A standalone PPB command: the failure is fatal. -/
theorem failDispatch_standalone {s : State} (ho : s.op ≠ .program) :
    s.failDispatch = s.raise .busOperationFailed := by
  unfold State.failDispatch
  split <;> simp only [ho, if_false]

/-- A transaction of the verify pass: the failure is fatal. -/
theorem failDispatch_verify {s : State}
    (h : s.ph ∈ [.vfySel0, .vfySel1, .vfySel2, .vfySel3, .vfyHs1, .vfyHs2, .vfyCrc]) :
    s.failDispatch = s.raise .busOperationFailed := by
  unfold State.failDispatch
  split
  case h_8 => simp_all
  all_goals rfl

/-- A cycle in the phase that issues it is one write transaction. -/
theorem emit_issued {s : State} {i : Instr} (h : s.instrAt = some i) (a : Addr) (d : Byte) (next : State → State) :
    s.emit i a d next = .next (s.transact (.write a d) (fun _ => next) State.failDispatch) := by
  simp only [State.emit, h, if_true]

/-- A cycle anywhere else is not issued. -/
theorem emit_not_issued {s : State} {i : Instr} (h : s.instrAt ≠ some i) (a : Addr) (d : Byte)
    (next : State → State) : s.emit i a d next = .fault .notIssuedInThisPhase := by
  simp only [State.emit, h, if_false]

end Sys2Proof.Machine
end

