-- ==== Sys2Proof/Laws/Phase.lean ====
section
/-! SUPPORT. Which phases issue which row (the inverse of `State.instrAt`), and that the translator's bytes always
fit the patterns of the select cycles. -/

namespace Sys2Proof.Machine

variable {s : State}

theorem instrAt_rst (h : s.instrAt = some .rst) :
    s.ph = .prgReset ∨ s.ph = .prgRreset ∨ s.ph = .vfyReset := by
  revert h
  simp only [State.instrAt]
  cases s.ph <;> simp [Option.bind_eq_some_iff, Option.map_eq_some_iff] <;> cases s.ppbop <;> simp

theorem instrAt_r {a : Addr} (h : s.instrAt = some (.r a)) :
    a = s.cfg.st ∧
      (s.ph = .pollRd1 ∨ s.ph = .pollRd2 ∨ s.ph = .pollRd3 ∨ s.ph = .pollRd4 ∨ s.ph = .ppbStat) := by
  revert h
  simp only [State.instrAt]
  cases s.ph <;> simp [Option.bind_eq_some_iff, Option.map_eq_some_iff] <;>
    first | exact fun e => e.symm | (cases s.ppbop <;> simp)

theorem instrAt_erase {m : Dialect} (h : s.instrAt = some (.erase m)) : m = s.dialect ∧ s.ph = .prgErase := by
  revert h
  simp only [State.instrAt]
  cases s.ph <;> simp [Option.bind_eq_some_iff, Option.map_eq_some_iff] <;>
    first | exact fun e => e.symm | (cases s.ppbop <;> simp)

theorem instrAt_pgm {a : Addr} {m : Dialect} (h : s.instrAt = some (.pgm a m)) :
    a = prgAddr s.cfg ∧ m = s.dialect ∧ s.ph = .prgPage := by
  revert h
  simp only [State.instrAt]
  cases s.ph <;> simp [Option.bind_eq_some_iff, Option.map_eq_some_iff] <;>
    first | exact fun e f => ⟨e.symm, f.symm⟩ | (cases s.ppbop <;> simp)

theorem instrAt_crc {a : Addr} (h : s.instrAt = some (.crc a)) : a = prgAddr s.cfg ∧ s.ph = .vfyCrc := by
  revert h
  simp only [State.instrAt]
  cases s.ph <;> simp [Option.bind_eq_some_iff, Option.map_eq_some_iff] <;>
    first | exact fun e => e.symm | (cases s.ppbop <;> simp)

/-- A phase of the verify pass or of the poll that has a transaction names its own row, not the sub-sequence. -/
theorem instrAt_poll (h : s.instrAt = some .poll) : s.ph = .pollSleep ∨ s.ph = .pollSettle := by
  revert h
  simp only [State.instrAt]
  cases s.ph <;> simp [Option.bind_eq_some_iff, Option.map_eq_some_iff] <;> cases s.ppbop <;> simp

theorem instrAt_verifyPass (h : s.instrAt = some .verifyPass) : s.ph = .vfyHead ∨ s.ph = .vfyNext := by
  revert h
  simp only [State.instrAt]
  cases s.ph <;> simp [Option.bind_eq_some_iff, Option.map_eq_some_iff] <;> cases s.ppbop <;> simp

/-! ### The select bytes fit their patterns -/

theorem ofByte_translateDirect_r0 (b : BitVec 11) :
    Sel0Data.ofByte .direct (translateDirect b).r0 = some (.direct (b.extractLsb' 9 2) (b.extractLsb' 3 3)) := by
  revert b; decide +kernel

theorem ofByte_translateDirect_r1 (b : BitVec 11) :
    Sel1Data.ofByte .direct (translateDirect b).r1 = some (.direct (b.extractLsb' 6 1) (b.extractLsb' 7 2)) := by
  revert b; decide +kernel

theorem ofByte_translateDirect_r3 (b : BitVec 11) :
    Sel3Data.ofByte .direct (translateDirect b).r3 = some (.direct (b.extractLsb' 0 3)) := by
  revert b; decide +kernel

theorem sel0_ofByte_byte (d : Sel0Data) : Sel0Data.ofByte d.dialect d.byte = some d := by
  cases d with
  | scrambled x => rfl
  | direct x y => revert x y; decide

theorem sel1_ofByte_byte (d : Sel1Data) : Sel1Data.ofByte d.dialect d.byte = some d := by
  cases d with
  | scrambled x => rfl
  | direct x y => revert x y; decide

theorem sel3_ofByte_byte (d : Sel3Data) : Sel3Data.ofByte d.dialect d.byte = some d := by
  cases d with
  | scrambled => rfl
  | direct x => revert x; decide

end Sys2Proof.Machine
end

