-- ==== Sys2Proof/Laws/Good.lean ====
section
/-! SUPPORT. Ways to show that a state is good: from a state that agrees on the fields the invariant reads, for a
state at rest, for a phase of PROGRAM or the verify pass, for a phase of the PPB routine. -/

namespace Sys2Proof.Machine

/-- The fields the invariant reads, but for the outstanding transaction. -/
def State.key (s : State) :=
  (s.cfg, s.ph, s.busy, s.done, s.result, s.errcnt, s.bank, s.op, s.dialect, s.sect, s.ppbop, s.bankcount,
    s.capacity, s.badmap, s.img)

theorem request_congr {s t : State} (h : t.key = s.key) : t.request = s.request := by
  simp only [State.key, Prod.mk.injEq] at h
  obtain ⟨h1, h2, -, -, -, -, h7, -, h9, h10, h11, -, -, -, h15⟩ := h
  simp only [State.request, State.instrAt, State.slice, State.selectRegs, State.selectBank, State.halfSelect,
    h1, h2, h7, h9, h10, h11, h15]

theorem State.Good.congr {s t : State} (h : s.Good) (hk : t.key = s.key)
    (ho : ∀ q, t.outstanding = some q → s.request = some q) : t.Good := by
  have hr := request_congr hk
  simp only [State.key, Prod.mk.injEq] at hk
  obtain ⟨h1, h2, h3, h4, h5, h6, h7, h8, h9, h10, h11, h12, h13, h14, h15⟩ := hk
  constructor
  case outstanding_eq => exact fun q hq => hr.trans (ho q hq)
  case image => rw [h15]; exact h.image
  all_goals
    simp only [State.bankInHand, State.dialectConfigured, State.bankcountIllegal, State.capacityExceeded,
      State.imageDone, State.sectorBad, State.ppbOpDue, h1, h2, h3, h4, h5, h6, h7, h8, h9, h10, h11, h12, h13,
      h14]
    first
      | exact h.busy_iff | exact h.not_both | exact h.result_ok | exact h.errors | exact h.configured
      | exact h.program_op | exact h.ppb_op | exact h.no_ppb_op | exact h.not_read | exact h.write_only
      | exact h.checked | exact h.bank_le | exact h.check_bank | exact h.in_hand | exact h.retry_start
      | exact h.skip_aligned | exact h.lock_sector | exact h.half_scrambled

/-- Using an answer leaves a good state good. -/
theorem State.Good.answered {s : State} (h : s.Good) (req : BusReq) (ans : Answer) : (s.answered req ans).Good :=
  h.congr (by simp [State.key]) (by simp)

/-- So does waiting for the answer of the phase's own transaction. -/
theorem State.Good.hold {s : State} (h : s.Good) {req : BusReq} (hq : s.request = some req) : (s.hold req).Good :=
  h.congr (by simp [State.key]) (by simp [hq])

/-- A state at rest. -/
theorem good_of_idle {t : State} (hw : Memory.wf t.img) (hp : t.ph = .idle) (hb : t.busy = false)
    (hpp : t.ppbop = .none) (ho : t.outstanding = none) : t.Good := by
  constructor
  case image => exact hw
  all_goals
    simp [hp, hb, hpp, ho, State.bankInHand, bankPhase, Phase.routine, Phase.code, notReadPhase, halfSelectPhase]

/-- What holds of every running command. -/
structure Running (s : State) : Prop where
  image : Memory.wf s.img
  busy : s.busy = true
  done : s.done = false
  result : s.result = .ok
  errors : s.errcnt.toNat < s.cfg.maxErrors
  configured : s.dialectConfigured s.dialect = true

/-- What holds of a running PROGRAM after its checks. -/
structure Programming (s : State) : Prop extends Running s where
  op : s.op = .program
  legal : s.bankcountIllegal = false
  fits : s.capacityExceeded = false
  bank_le : s.bank.toNat ≤ 8 * ((s.bankcount.toNat + 7) / 8)

theorem State.Good.running {s : State} (h : s.Good) (hp : s.ph ≠ .idle) : Running s := by
  have hb := h.busy_iff.2 hp
  exact ⟨h.image, hb, by simpa [hb] using h.not_both, h.result_ok hb, h.errors hb, h.configured hb⟩

theorem State.Good.programming {s : State} (h : s.Good) (hp : s.ph ≠ .idle) (hc : s.ph ≠ .prgCheck)
    (ho : s.op = .program) : Programming s := by
  have r := h.running hp
  exact ⟨r, ho, (h.checked r.busy ho hc).1, (h.checked r.busy ho hc).2, h.bank_le r.busy ho hc⟩

/-- A phase of PROGRAM or of the verify pass, nothing outstanding. -/
theorem good_of_programming {t : State} (p : Programming t) (hi : t.ph ≠ .idle) (ho : t.outstanding = none)
    (hr : t.ph.routine ≠ 3) (hpp : t.ph ≠ .prgRetry → t.ppbop = .none)
    (hcb : t.ph = .prgCheck ∨ t.ph = .prgReset → t.bank = 0)
    (hin : bankPhase t.ph = true → t.imageDone = false ∧ t.sectorBad = false)
    (hrs : t.ph = .prgRreset → unitOf t.cfg t.bank = 0)
    (hsk : t.ph = .prgHead ∨ t.ph = .vfyHead → t.sectorBad = true → unitOf t.cfg t.bank = 0)
    (hhs : halfSelectPhase t.ph = true → t.dialect = .scrambled) : t.Good where
  image := p.image
  busy_iff := by simp [p.busy, hi]
  not_both := by simp [p.done]
  result_ok _ := p.result
  errors _ := p.errors
  configured _ := p.configured
  program_op _ := p.op
  ppb_op h := absurd h hr
  no_ppb_op _ := hpp
  not_read h := by revert h hr; cases t.ph <;> simp [notReadPhase, Phase.routine, Phase.code]
  write_only h := by rcases h with h | h <;> exact absurd (by rw [h]; decide) hr
  checked _ _ _ := ⟨p.legal, p.fits⟩
  bank_le _ _ _ := p.bank_le
  check_bank := hcb
  in_hand h := h.elim hin fun h => absurd h.1 hr
  retry_start := hrs
  skip_aligned := hsk
  lock_sector h := absurd h hr
  half_scrambled := hhs
  outstanding_eq := by simp [ho]

/-- A phase of the PPB routine or of the poll, nothing outstanding. -/
theorem good_of_ppb {t : State} (p : Running t) (h3 : t.ph.routine = 3) (ho : t.outstanding = none)
    (hop : t.op ≠ .none ∧ t.ppbop = t.ppbOpDue) (hnr : notReadPhase t.ph = true → t.ppbop ≠ .readOne)
    (hwo : t.ph = .ppbSlo ∨ t.ph = .ppbShi → t.ppbop = .writeOne)
    (hpr : t.op = .program →
      Programming t ∧ t.imageDone = false ∧ t.sectorBad = false ∧ t.sect = sectorOf t.cfg t.bank) : t.Good where
  image := p.image
  busy_iff := by simp only [p.busy, true_iff]; intro h; rw [h] at h3; exact absurd h3 (by decide)
  not_both := by simp [p.done]
  result_ok _ := p.result
  errors _ := p.errors
  configured _ := p.configured
  program_op h := by rcases h with h | h <;> rw [h3] at h <;> exact absurd h (by decide)
  ppb_op _ := hop
  no_ppb_op h := absurd h3 h
  not_read := hnr
  write_only := hwo
  checked _ o _ := ⟨(hpr o).1.legal, (hpr o).1.fits⟩
  bank_le _ o _ := (hpr o).1.bank_le
  check_bank h := by rcases h with h | h <;> rw [h] at h3 <;> exact absurd h3 (by decide)
  in_hand h := by
    rcases h with h | h
    · revert h h3; cases t.ph <;> simp [bankPhase, Phase.routine, Phase.code]
    · exact ⟨(hpr h.2).2.1, (hpr h.2).2.2.1⟩
  retry_start h := by rw [h] at h3; exact absurd h3 (by decide)
  skip_aligned h := by rcases h with h | h <;> rw [h] at h3 <;> exact absurd h3 (by decide)
  lock_sector _ o := (hpr o).2.2.2
  half_scrambled h := by revert h h3; cases t.ph <;> simp [halfSelectPhase, Phase.routine, Phase.code]
  outstanding_eq := by simp [ho]

end Sys2Proof.Machine
end

