-- ==== Sys2Proof/Laws/PerInstr.lean ====
section
/-! SUPPORT. The per-instruction family `RowPattern`: the encoder gives every instruction the fixed fields of its
row of spec/opcode_table.json ("fixed": low bit, width, value). -/

namespace Sys2Proof.Laws.RowPattern

/-- A field of an encoded word, as a number. -/
def field (k : Code) (lo n : Nat) : Nat :=
  match k with
  | .cmd16 word => (word.extractLsb' lo n).toNat
  | .busreq word => (word.extractLsb' lo n).toNat
  | .cyc24 word => (word.extractLsb' lo n).toNat

/-- The fixed fields of a row: (low bit, width, value). The select rows give theirs for the direct dialect; in the
scrambled one `SEL0` and `SEL1` carry any byte and `SEL3` carries 0x00. -/
def fixed : Instr → List (Nat × Nat × Nat)
  | .nop .. => [(0, 3, 0), (5, 3, 0)]
  | .ppbEraseAll .. => [(0, 3, 1), (5, 3, 0)]
  | .ppbWrite .. => [(0, 3, 2), (5, 3, 0)]
  | .ppbRead .. => [(0, 3, 3), (5, 3, 0)]
  | .program .. => [(0, 3, 4), (5, 3, 0)]
  | .illegal5 .. => [(0, 3, 5)]
  | .illegal6 .. => [(0, 3, 6)]
  | .illegal7 .. => [(0, 3, 7)]
  | .rst => [(0, 3, 1)]
  | .w .. => [(0, 3, 2)]
  | .r .. => [(0, 3, 3)]
  | .erase .. => [(0, 3, 4)]
  | .pgm .. => [(0, 3, 5)]
  | .crc .. => [(0, 3, 6)]
  | .ent1 => [(0, 24, 0x8AAAAA)]
  | .ent2 => [(0, 24, 0x855555)]
  | .ent3 => [(0, 24, 0x8AAAC0)]
  | .ppbe1 _ => [(0, 8, 0x80)]
  | .ppbe2 _ => [(0, 8, 0x30)]
  | .ppbw1 _ => [(0, 8, 0xA0)]
  | .ppbw2 _ => [(0, 8, 0x00)]
  | .ppbr1 _ => [(0, 8, 0xC0)]
  | .sechi _ => [(0, 8, 0x00)]
  | .exit1 _ => [(0, 8, 0x90)]
  | .exit2 _ => [(0, 8, 0x00)]
  | .sel0 _ (.direct ..) => [(6, 2, 1), (3, 1, 0)]
  | .sel1 _ (.direct ..) => [(5, 3, 4), (0, 2, 0)]
  | .sel2 _ => [(0, 8, 0x00)]
  | .sel3 _ (.direct _) => [(4, 4, 1), (0, 1, 0)]
  | .sel3 _ .scrambled => [(0, 8, 0x00)]
  | .illegalRsv .. | .seclo .. | .sel0 _ (.scrambled _) | .sel1 _ (.scrambled _) | .hs1 .. | .hs2 ..
  | .translate .. | .crc16 .. | .poll | .verifyPass => []

/-- Every fixed field of the row has its value in the encoded word. -/
def Statement (i : Instr) : Prop :=
  ∀ k, encode i = some k → ∀ f ∈ fixed i, field k f.1 f.2.1 = f.2.2

/-- A cycle's data byte, where the whole byte is fixed. -/
theorem of_data {i : Instr} {a : Addr} {d : Byte} (he : encode i = some (.cyc24 (cycleWord a d)))
    (hf : fixed i = [(0, 8, d.toNat)]) : Statement i := by
  intro k hk f hm
  rw [he] at hk
  cases hk
  rw [hf, List.mem_singleton] at hm
  subst hm
  simp only [field, cycleWord_data]

/-- A field inside a cycle's data byte. -/
theorem cycleWord_low (a : Addr) (d : Byte) (lo n : Nat) (h : lo + n ≤ 8) :
    (cycleWord a d).extractLsb' lo n = d.extractLsb' lo n := by
  ext i hi
  simp only [BitVec.getElem_extractLsb']
  show (a ++ d : BitVec (16 + 8)).getLsbD (lo + i) = _
  rw [BitVec.getLsbD_append, if_pos (by omega)]

theorem nop (d : Dialect) (v : Bool) (sec : BitVec 8) : Statement (.nop d v sec) := by
  simp [Statement, encode, fixed, field, -BitVec.extractLsb'_toNat]

theorem ppbEraseAll (d : Dialect) (v : Bool) (sec : BitVec 8) : Statement (.ppbEraseAll d v sec) := by
  simp [Statement, encode, fixed, field, -BitVec.extractLsb'_toNat]

theorem ppbWrite (d : Dialect) (v : Bool) (sec : BitVec 8) : Statement (.ppbWrite d v sec) := by
  simp [Statement, encode, fixed, field, -BitVec.extractLsb'_toNat]

theorem ppbRead (d : Dialect) (v : Bool) (sec : BitVec 8) : Statement (.ppbRead d v sec) := by
  simp [Statement, encode, fixed, field, -BitVec.extractLsb'_toNat]

theorem program (d : Dialect) (v : Bool) (sec : BitVec 8) : Statement (.program d v sec) := by
  simp [Statement, encode, fixed, field, -BitVec.extractLsb'_toNat]

theorem illegal5 (d : Dialect) (v : Bool) (sec : BitVec 8) : Statement (.illegal5 d v sec) := by
  simp [Statement, encode, fixed, field, -BitVec.extractLsb'_toNat]

theorem illegal6 (d : Dialect) (v : Bool) (sec : BitVec 8) : Statement (.illegal6 d v sec) := by
  simp [Statement, encode, fixed, field, -BitVec.extractLsb'_toNat]

theorem illegal7 (d : Dialect) (v : Bool) (sec : BitVec 8) : Statement (.illegal7 d v sec) := by
  simp [Statement, encode, fixed, field, -BitVec.extractLsb'_toNat]

theorem illegalRsv (opc : BitVec 3) (d : Dialect) (v : Bool) (rsv : BitVec 3) (sec : BitVec 8) :
    Statement (.illegalRsv opc d v rsv sec) := by
  simp [Statement, fixed]

theorem rst : Statement .rst := by
  simp [Statement, encode, fixed, field, -BitVec.extractLsb'_toNat]

theorem w (a : Addr) (x : Byte) : Statement (.w a x) := by
  simp [Statement, encode, fixed, field, -BitVec.extractLsb'_toNat]

theorem r (a : Addr) : Statement (.r a) := by
  simp [Statement, encode, fixed, field, -BitVec.extractLsb'_toNat]

theorem erase (m : Dialect) : Statement (.erase m) := by
  simp [Statement, encode, fixed, field, -BitVec.extractLsb'_toNat]

theorem pgm (a : Addr) (m : Dialect) : Statement (.pgm a m) := by
  simp [Statement, encode, fixed, field, -BitVec.extractLsb'_toNat]

theorem crc (a : Addr) : Statement (.crc a) := by
  simp [Statement, encode, fixed, field, -BitVec.extractLsb'_toNat]

theorem ent1 : Statement .ent1 := by
  simp [Statement, encode, fixed, field, Instr.cycle, cycleWord]

theorem ent2 : Statement .ent2 := by
  simp [Statement, encode, fixed, field, Instr.cycle, cycleWord]

theorem ent3 : Statement .ent3 := by
  simp [Statement, encode, fixed, field, Instr.cycle, cycleWord]

theorem ppbe1 (a : Addr) : Statement (.ppbe1 a) :=
  of_data rfl rfl

theorem ppbe2 (a : Addr) : Statement (.ppbe2 a) :=
  of_data rfl rfl

theorem ppbw1 (a : Addr) : Statement (.ppbw1 a) :=
  of_data rfl rfl

theorem ppbw2 (a : Addr) : Statement (.ppbw2 a) :=
  of_data rfl rfl

theorem ppbr1 (a : Addr) : Statement (.ppbr1 a) :=
  of_data rfl rfl

theorem sechi (a : Addr) : Statement (.sechi a) :=
  of_data rfl rfl

theorem exit1 (a : Addr) : Statement (.exit1 a) :=
  of_data rfl rfl

theorem exit2 (a : Addr) : Statement (.exit2 a) :=
  of_data rfl rfl

theorem sel2 (a : Addr) : Statement (.sel2 a) :=
  of_data rfl rfl

theorem seclo (a : Addr) (sect : BitVec 8) : Statement (.seclo a sect) := by
  simp [Statement, fixed]

theorem sel0 (a : Addr) (d : Sel0Data) : Statement (.sel0 a d) := by
  cases d with
  | scrambled x => simp [Statement, fixed]
  | direct x y =>
    simp only [Statement, encode, Instr.cycle, Option.map_some, Option.some.injEq, forall_eq', fixed, field,
      List.forall_mem_cons, cycleWord_low, Nat.reduceAdd, Nat.reduceLeDiff, List.not_mem_nil, false_imp_iff,
      forall_true_iff, and_true]
    revert x y
    decide

theorem sel1 (a : Addr) (d : Sel1Data) : Statement (.sel1 a d) := by
  cases d with
  | scrambled x => simp [Statement, fixed]
  | direct x y =>
    simp only [Statement, encode, Instr.cycle, Option.map_some, Option.some.injEq, forall_eq', fixed, field,
      List.forall_mem_cons, cycleWord_low, Nat.reduceAdd, Nat.reduceLeDiff, List.not_mem_nil, false_imp_iff,
      forall_true_iff, and_true]
    revert x y
    decide

theorem sel3 (a : Addr) (d : Sel3Data) : Statement (.sel3 a d) := by
  cases d with
  | scrambled => exact of_data rfl rfl
  | direct x =>
    simp only [Statement, encode, Instr.cycle, Option.map_some, Option.some.injEq, forall_eq', fixed, field,
      List.forall_mem_cons, cycleWord_low, Nat.reduceAdd, Nat.reduceLeDiff, List.not_mem_nil, false_imp_iff,
      forall_true_iff, and_true]
    revert x
    decide

theorem hs1 (a : Addr) (x : Byte) : Statement (.hs1 a x) := by
  simp [Statement, fixed]

theorem hs2 (a : Addr) (x : Byte) : Statement (.hs2 a x) := by
  simp [Statement, fixed]

theorem translate (b : BitVec 11) (d : Dialect) : Statement (.translate b d) := by
  simp [Statement, fixed]

theorem crc16 (bytes : List Byte) : Statement (.crc16 bytes) := by
  simp [Statement, fixed]

theorem poll : Statement .poll := by
  simp [Statement, fixed]

theorem verifyPass : Statement .verifyPass := by
  simp [Statement, fixed]

end Sys2Proof.Laws.RowPattern
end

