-- ==== Sys2Proof/Machine/Environment.lean ====
section
/-! DEFINITION. The two reference environments of R77, for tests only: "Neither is normative for the hardware
outside the block." Each answers a request from the history of transactions alone. -/

namespace Sys2Proof.Machine

/-- An environment as a function of the history (newest first) and the request. -/
abbrev Adapter := List Txn → BusReq → Reply

/-- One step in an environment: the request of the current phase is answered by it. -/
def stepIn (env : Adapter) (s : State) : Out :=
  match s.request with
  | some req => step { s with script := [env s.trace req] }
  | none => step s

/-- The scripted adapter (R77): the transactions of these running numbers, counted from 1, answer `fail`; the
reads of `ST` and the CRCs answer the next value of their lists, and past their ends nothing (DESIGN CHOICE,
log 23). -/
structure ScriptedAdapter where
  fails : List Nat
  reads : List Byte
  crcs : List (BitVec 16)
deriving DecidableEq, Repr

/-- The transaction was a read that answered a byte. -/
def Txn.isReadByte (t : Txn) : Bool :=
  match t.ans with
  | .okByte _ => true
  | _ => false

/-- The transaction was a CRC that answered a value. -/
def Txn.isCrcValue (t : Txn) : Bool :=
  match t.ans with
  | .okCrc _ => true
  | _ => false

/-- The answers of the scripted adapter. -/
def ScriptedAdapter.adapter (e : ScriptedAdapter) : Adapter := fun trace req =>
  if trace.length + 1 ∈ e.fails then .fail
  else match req with
    | .read .. =>
      match e.reads[trace.countP Txn.isReadByte]? with
      | some b => .ok (b.setWidth 16)
      | none => .wait
    | .readCrc16 .. =>
      match e.crcs[trace.countP Txn.isCrcValue]? with
      | some c => .ok c
      | none => .wait
    | .reset | .write .. | .eraseSector .. | .programPage .. => .ok 0

/-- What the faithful adapter remembers of the history: the mapper's bytes and the half-bank select writes after
them, the last write, what erase-all left, the sectors (by their select bytes) write-one locked since, and the
CRC of each page programmed, newest first. -/
structure RefDevice where
  regs : SelectRegs
  half : List (Addr × Byte)
  last : Addr × Byte
  locked : List SelectRegs
  pages : List (SelectRegs × List (Addr × Byte) × BitVec 16)
deriving DecidableEq, Repr

/-- Nothing selected, locked or programmed yet; that the mapper then holds zeros is a DESIGN CHOICE (log 23). -/
def RefDevice.start : RefDevice :=
  ⟨⟨0, 0, 0, 0⟩, [], (0, 0), [], []⟩

/-- A pair is one of the configuration's half-bank select writes. -/
def isHalfSelect (c : Config) (p : Addr × Byte) : Bool :=
  match c.scr with
  | none => false
  | some k => k.hsel.toList.any fun q => q.1 = p ∨ q.2 = p

/-- The mapper and the PPB commands of one write. That a write of `REG_ADDR0` begins a new list of half-bank select
writes, and that a PPB command is its second write after its first with no other write between, is a DESIGN CHOICE
(log 23). Where OPEN addresses coincide, a write counts for one role, the first of: the lowest-numbered `REG_ADDR`
that equals its address, a half-bank select pair (in either dialect), the second write of a PPB command; the order is
a DESIGN CHOICE (log 23). So is that every write, whatever its role, may be the first of a PPB command. -/
def RefDevice.write (c : Config) (a : Addr) (x : Byte) (d : RefDevice) : RefDevice :=
  let d' :=
    if a = c.reg0 then { d with regs := { d.regs with r0 := x }, half := [] }
    else if a = c.reg1 then { d with regs := { d.regs with r1 := x } }
    else if a = c.reg2 then { d with regs := { d.regs with r2 := x } }
    else if a = c.reg3 then { d with regs := { d.regs with r3 := x } }
    else if isHalfSelect c (a, x) then { d with half := d.half ++ [(a, x)] }
    else if a = c.st ∧ d.last = (c.st, 0x80) ∧ x = 0x30 then { d with locked := [] }
    else if a = c.st ∧ d.last = (c.st, 0xA0) ∧ x = 0x00 then { d with locked := d.regs :: d.locked }
    else d
  { d' with last := (a, x) }

/-- One transaction of the history; one that failed did nothing. R121 says that what `RST` does to the mapper and
the device is not in the source (N15); here it leaves all that the adapter remembers as it was, as a sector erase
and an abandoned transaction do: DESIGN CHOICE (log 23). -/
def RefDevice.apply (c : Config) (t : Txn) (d : RefDevice) : RefDevice :=
  match t.ans, t.req with
  | .fail, _ | .abandoned, _ => d
  | _, .write a x => d.write c a x
  | _, .programPage _ bytes _ _ => { d with pages := (d.regs, d.half, crc16 c bytes) :: d.pages }
  | _, .reset | _, .read .. | _, .eraseSector _ | _, .readCrc16 .. => d

/-- The answers of the faithful adapter (R77): `ok` to everything; a status byte with DQ6 and DQ5 clear and bit
0 as the last PPB command left it; the CRC of the last page programmed under the same select. R77 gives no status
byte for a sector no PPB command acted on (none was seen, or only write-ones of other sectors) and no CRC where no
page was programmed under the select: here 0x01 and 0x0000, DESIGN CHOICE (log 23). So are the status bits other than
0, 5 and 6, here 0, and that a sector is told by its four select bytes. -/
def faithfulAdapter (c : Config) : Adapter := fun trace req =>
  let d := trace.foldr (RefDevice.apply c) RefDevice.start
  match req with
  | .read .. => if d.regs ∈ d.locked then .ok 0x00 else .ok 0x01
  | .readCrc16 .. =>
    match d.pages.find? fun p => p.1 = d.regs ∧ p.2.1 = d.half with
    | some p => .ok p.2.2
    | none => .ok 0
  | .reset | .write .. | .eraseSector .. | .programPage .. => .ok 0

end Sys2Proof.Machine
end

