-- ==== Sys2Proof/Tests/Slice0.lean ====
section
/-! SUPPORT. The model's own tests: the words of spec/30_encoding.md decoded, one step of each row with the values of
spec/95_test_vectors.md (vector names W, T, K, Q, P in the comments), ill-formed terms refused, and for every
statement with hypotheses a concrete state that meets them (`witness_<Name>`). -/

namespace Sys2Proof.Tests

open Machine

/-! ### Small states -/

/-- A configuration: the addresses of the trace names of R100, no scrambled functions, `EX` left equal to `ST`. -/
def config : Config where
  reg0 := 0x5000
  reg1 := 0x5001
  reg2 := 0x5002
  reg3 := 0x5003
  st := 0x9000
  ex := none
  slo := 0x9002
  shi := 0x9003
  prg := ⟨0x8000, by decide⟩
  scr := none
  tPoll := 0
  tSettle := 0

/-- Scrambled functions: r0 is the number of the table's row, r1 likewise; one pair of half-bank writes. -/
def scrambled : Scrambled where
  r0 := Vector.ofFn fun i => BitVec.ofNat 8 i.val
  r1 := Vector.ofFn fun i => BitVec.ofNat 8 (0x40 + i.val)
  hsel := Vector.ofFn fun i => ((0x6000, BitVec.ofNat 8 i.val), (0x6001, BitVec.ofNat 8 (0x80 + i.val)))

/-- The block at rest after reset, on that configuration. -/
def rest : State := { State.reset with cfg := config }

/-- The block at rest on a configuration that has the scrambled functions. -/
def restScr : State := { State.reset with cfg := { config with scr := some scrambled } }

/-- A running command in a phase, the environment's next answer given. -/
def inPhase (ph : Phase) (op : Op) (ppbop : PpbOp) (r : Reply) : State :=
  { rest with ph := ph, busy := true, op := op, ppbop := ppbop, script := [r] }

/-- The same in the scrambled dialect. -/
def inPhaseScr (ph : Phase) (op : Op) (r : Reply) : State :=
  { restScr with ph := ph, busy := true, op := op, dialect := .scrambled, script := [r] }

/-- The state after a step; the state at rest where there is none. -/
def after (o : Out) : State :=
  match o with
  | .next t => t
  | .fault _ | .refused _ => rest

/-- A next state with a property, as one evaluation: for steps over a whole bank. -/
def nextWith (o : Out) (p : State → Bool) : Bool :=
  match o with
  | .next t => p t
  | .fault _ | .refused _ => false

/-- The bus transaction a step ended, if any. -/
def ended (o : Out) : Option Txn :=
  (after o).trace.head?

/-! ### The fixed parameters agree -/

-- R7: 8 banks are a sector, two half-banks a bank, 16 half-banks a sector
theorem test_fixed_sizes :
    Fixed.source.banksPerSector * Fixed.source.bankBytes = Fixed.source.sectorBytes ∧
      2 * Fixed.source.halfBankBytes = Fixed.source.bankBytes ∧
      Fixed.source.halfBanksPerOutbank * Fixed.source.halfBankBytes = Fixed.source.sectorBytes := by decide

/-! ### Ill-formed terms are refused -/

theorem test_wf_reserved_bits_set : (Instr.illegalRsv 0 .direct false 0 0).wf = false := by decide
theorem test_wf_page_inside_bus : (Instr.pgm 0xC001 .direct).wf = false := by decide
theorem test_wf_page_at_bound : (Instr.pgm 0xC000 .direct).wf = true := by decide
theorem test_wf_crc_inside_bus : (Instr.crc 0xFFFF).wf = false := by decide
theorem test_cycle_not_in_phase :
    (Instr.ppbe1 0x9000).cycleIn ⟨.ppbCmd1, .writeOne, .direct⟩ = false := by decide
theorem test_half_select_not_direct :
    (Instr.hs1 0x6000 0).cycleIn ⟨.prgHs1, .none, .direct⟩ = false := by decide

/-! ### Decoding: words written out from R90, R95 to R97 -/

-- CMD16: vectors W2, W4, W7, W9, W13, W15, W16, W18
theorem test_decode_nop : decodeCommand 0xFF18 = .nop .scrambled true 0xFF := by decide
theorem test_decode_ppbEraseAll : decodeCommand 0x0009 = .ppbEraseAll .scrambled false 0 := by decide
theorem test_decode_ppbWrite : decodeCommand 0x0302 = .ppbWrite .direct false 3 := by decide
theorem test_decode_ppbRead : decodeCommand 0x0503 = .ppbRead .direct false 5 := by decide
theorem test_decode_program : decodeCommand 0x001C = .program .scrambled true 0 := by decide
theorem test_decode_illegal5 : decodeCommand 0x0005 = .illegal5 .direct false 0 := by decide
theorem test_decode_illegal6 : decodeCommand 0x0106 = .illegal6 .direct false 1 := by decide
theorem test_decode_illegal7 : decodeCommand 0x0007 = .illegal7 .direct false 0 := by decide
theorem test_decode_illegalRsv : decodeCommand 0x0080 = .illegalRsv 0 .direct false 4 0 := by decide
theorem test_decode_reserved_first : decodeCommand 0x0025 = .illegalRsv 5 .direct false 1 0 := by decide

-- BUSREQ: KIND 2:0, ADDR 23:8, DATA 31:24, MODE 32 (the model's packing, log 13)
theorem test_decode_rst : decodeRequest 0x0000000001 = .ok .rst := by decide
theorem test_decode_w : decodeRequest 0x00AA8AAA02 = .ok (.w 0x8AAA 0xAA) := by decide
theorem test_decode_r : decodeRequest 0x0000900003 = .ok (.r 0x9000) := by decide
theorem test_decode_erase : decodeRequest 0x0100000004 = .ok (.erase .scrambled) := by decide
theorem test_decode_pgm : decodeRequest 0x0000800005 = .ok (.pgm 0x8000 .direct) := by decide
theorem test_decode_crc : decodeRequest 0x0000C00006 = .ok (.crc 0xC000) := by decide
theorem test_decode_kind0 : decodeRequest 0 = .error .noRequest := by decide
theorem test_decode_kind7 : decodeRequest 7 = .error .reservedKind := by decide
theorem test_decode_window_overrun : decodeRequest 0x0000C00106 = .error .windowOverrun := by decide
theorem test_decode_field_not_of_kind : decodeRequest 0x0000900001 = .error .fieldNotOfKind := by decide

-- CYC24: ADDR 23:8, DATA 7:0, in the phase of R97's table
theorem test_decode_ent1 : decodeCycle ⟨.ppbEnt1, .eraseAll, .direct⟩ 0x8AAAAA = .ok .ent1 := by decide
theorem test_decode_ent2 : decodeCycle ⟨.ppbEnt2, .eraseAll, .direct⟩ 0x855555 = .ok .ent2 := by decide
theorem test_decode_ent3 : decodeCycle ⟨.ppbEnt3, .eraseAll, .direct⟩ 0x8AAAC0 = .ok .ent3 := by decide
theorem test_decode_ppbe1 : decodeCycle ⟨.ppbCmd1, .eraseAll, .direct⟩ 0x900080 = .ok (.ppbe1 0x9000) := by decide
theorem test_decode_ppbe2 : decodeCycle ⟨.ppbCmd2, .eraseAll, .direct⟩ 0x900030 = .ok (.ppbe2 0x9000) := by decide
theorem test_decode_ppbw1 : decodeCycle ⟨.ppbCmd1, .writeOne, .direct⟩ 0x9000A0 = .ok (.ppbw1 0x9000) := by decide
theorem test_decode_ppbw2 : decodeCycle ⟨.ppbCmd2, .writeOne, .direct⟩ 0x900000 = .ok (.ppbw2 0x9000) := by decide
theorem test_decode_ppbr1 : decodeCycle ⟨.ppbCmd1, .readOne, .direct⟩ 0x9000C0 = .ok (.ppbr1 0x9000) := by decide
theorem test_decode_seclo : decodeCycle ⟨.ppbSlo, .writeOne, .direct⟩ 0x9002FF = .ok (.seclo 0x9002 255) := by decide
theorem test_decode_sechi : decodeCycle ⟨.ppbShi, .writeOne, .direct⟩ 0x900300 = .ok (.sechi 0x9003) := by decide
theorem test_decode_exit1 : decodeCycle ⟨.ppbExit1, .readOne, .direct⟩ 0x900090 = .ok (.exit1 0x9000) := by decide
theorem test_decode_exit2 : decodeCycle ⟨.ppbExit2, .readOne, .direct⟩ 0x900000 = .ok (.exit2 0x9000) := by decide
-- T21: bank 0x555 gives 62 98 00 1A
theorem test_decode_sel0 : decodeCycle ⟨.prgSel0, .none, .direct⟩ 0x500062 = .ok (.sel0 0x5000 (.direct 2 2)) := by
  decide
theorem test_decode_sel1 : decodeCycle ⟨.vfySel1, .none, .direct⟩ 0x500198 = .ok (.sel1 0x5001 (.direct 1 2)) := by
  decide
theorem test_decode_sel2 : decodeCycle ⟨.ppbSel2, .none, .direct⟩ 0x500200 = .ok (.sel2 0x5002) := by decide
theorem test_decode_sel3 : decodeCycle ⟨.prgSel3, .none, .direct⟩ 0x50031A = .ok (.sel3 0x5003 (.direct 5)) := by
  decide
theorem test_decode_sel3_scrambled :
    decodeCycle ⟨.prgSel3, .none, .scrambled⟩ 0x500300 = .ok (.sel3 0x5003 .scrambled) := by decide
theorem test_decode_hs1 : decodeCycle ⟨.prgHs1, .none, .scrambled⟩ 0x600007 = .ok (.hs1 0x6000 7) := by decide
theorem test_decode_hs2 : decodeCycle ⟨.vfyHs2, .none, .scrambled⟩ 0x600187 = .ok (.hs2 0x6001 0x87) := by decide
theorem test_decode_sel0_pattern :
    decodeCycle ⟨.prgSel0, .none, .direct⟩ 0x50006A = .error .notThisCycle := by decide

/-! ### One step of each row -/

-- W2: nothing changes
theorem test_nop : after (exec (.nop .scrambled true 0xFF) { rest with done := true, errcnt := 2 }) =
    { rest with done := true, errcnt := 2 } := by decide
-- W5: SECTOR is ignored
theorem test_ppbEraseAll :
    let t := after (exec (.ppbEraseAll .direct false 7) rest)
    t.sect = 0 ∧ t.ph = .ppbSel0 ∧ t.ppbop = .eraseAll ∧ t.busy = true := by decide
-- W8
theorem test_ppbWrite :
    let t := after (exec (.ppbWrite .direct false 255) { rest with done := true, bank := 9 })
    t.sect = 255 ∧ t.ppbop = .writeOne ∧ t.done = false ∧ t.bank = 0 := by decide
-- W9
theorem test_ppbRead :
    let t := after (exec (.ppbRead .direct false 5) { rest with rdata := 1 })
    t.sect = 5 ∧ t.ph.code = 0x60 ∧ t.ppbop = .readOne ∧ t.rdata = 0 := by decide
-- W11
theorem test_program :
    let t := after (exec (.program .direct true 0) rest)
    t.ph = .prgCheck ∧ t.verify = true ∧ t.op.code = 4 ∧ t.ppbop = .none := by decide
-- W15, W16, W17: STATUS = 0x001E
theorem test_illegal5 : (after (exec (.illegal5 .direct false 0) { rest with errcnt := 1 })).status = 0x001E := by decide
theorem test_illegal6 : (after (exec (.illegal6 .direct false 0) rest)).status = 0x001E := by decide
theorem test_illegal7 : (after (exec (.illegal7 .direct false 0) rest)).status = 0x001E := by decide
theorem test_illegalRsv : (after (exec (.illegalRsv 4 .direct false 1 0) rest)).status = 0x001E := by decide
-- W19
theorem test_command_while_busy :
    after (exec (.program .direct false 0) (inPhase .ppbEnt1 .write .writeOne .wait)) =
      inPhase .ppbEnt1 .write .writeOne .wait := by decide

theorem test_rst_program : (after (exec .rst (inPhase .prgReset .program .none (.ok 0)))).ph = .prgHead := by decide
theorem test_rst_verify :
    let t := after (exec .rst { inPhase .vfyReset .program .none (.ok 0) with bank := 9, errcnt := 2 })
    t.bank = 0 ∧ t.errcnt = 2 ∧ t.ph = .vfyHead := by decide
theorem test_w : ended (exec (.w 0x8AAA 0xAA) (inPhase .ppbEnt1 .write .writeOne (.ok 0))) =
    some ⟨.write 0x8AAA 0xAA, .ok⟩ := by decide
theorem test_w_not_issued :
    exec (.w 0x8AAA 0xAB) (inPhase .ppbEnt1 .write .writeOne (.ok 0)) matches .fault .notIssuedInThisPhase := by decide
-- Q7: S1 = 40, S2 = 20: toggled, DQ5 of the second read not examined
theorem test_r_poll :
    let t := after (exec (.r 0x9000) { inPhase .pollRd2 .write .writeOne (.ok 0x20) with s1 := 0x40 })
    t.s2 = 0x20 ∧ t.ph = .pollSleep := by decide
-- Q8: S1 = 60, S2 = 20: follow-up pair
theorem test_r_timeout_pair :
    (after (exec (.r 0x9000) { inPhase .pollRd2 .write .writeOne (.ok 0x20) with s1 := 0x60 })).ph = .pollRd3 := by
  decide
theorem test_erase :
    let t := after (exec (.erase .direct) { inPhase .prgErase .program .none (.ok 0) with bank := 16 })
    t.ph = .prgPage ∧ t.events = [.erase 2] ∧ t.trace = [⟨.eraseSector .direct, .ok⟩] := by decide
theorem test_erase_fail :
    let t := after (exec (.erase .direct) { inPhase .prgErase .program .none .fail with bank := 16 })
    t.ph = .prgRetry ∧ t.errcnt = 0 := by decide
theorem test_pgm_unwritten :
    exec (.pgm 0x8000 .direct) (inPhase .prgPage .program .none (.ok 0)) matches .refused .imageByteUnwritten := by decide
theorem test_pgm :
    nextWith (exec (.pgm 0x8000 .direct) { inPhase .prgPage .program .none (.ok 0) with img := zeroBank })
      (fun t => t.ph.code == 0x2B) = true := by decide +kernel
theorem test_crc_fail :
    nextWith (exec (.crc 0x8000) { inPhase .vfyCrc .program .none .fail with img := zeroBank, errcnt := 1 })
      (fun t => t.status == 0x002A && t.mmAct == 0) = true := by decide +kernel
-- P9's mismatch: MM_EXP = EA67, MM_ACT = 1234 at bank 1
theorem test_crc_mismatch :
    let t := State.vfyCompare 0x1234 { inPhase .vfyCrc .program .none .wait with bank := 1, mmExp := 0xEA67 }
    t.status = 0x001A ∧ t.mmBank = 1 ∧ t.mmExp = 0xEA67 ∧ t.mmAct = 0x1234 := by decide
theorem test_crc_match :
    (State.vfyCompare 0xEA67 { inPhase .vfyCrc .program .none .wait with mmExp := 0xEA67 }).ph = .vfyNext := by decide

theorem test_ent1 : (after (exec .ent1 (inPhase .ppbEnt1 .read .readOne (.ok 0)))).ph = .ppbEnt2 := by decide
theorem test_ent2 : ended (exec .ent2 (inPhase .ppbEnt2 .read .readOne (.ok 0))) =
    some ⟨.write 0x8555 0x55, .ok⟩ := by decide
theorem test_ent3 : (after (exec .ent3 (inPhase .ppbEnt3 .read .readOne (.ok 0)))).ph = .ppbCmd1 := by decide
-- a standalone command: fatal at once; PROGRAM's lock: retried
theorem test_ent3_fail :
    let t := after (exec .ent3 (inPhase .ppbEnt3 .read .readOne .fail))
    t.result.code = 2 ∧ t.busy = false ∧ t.ppbop = .none := by decide
theorem test_ppbe1 : ended (exec (.ppbe1 0x9000) (inPhase .ppbCmd1 .eraseAll .eraseAll (.ok 0))) =
    some ⟨.write 0x9000 0x80, .ok⟩ := by decide
theorem test_ppbe2 : (after (exec (.ppbe2 0x9000) (inPhase .ppbCmd2 .eraseAll .eraseAll (.ok 0)))).ph = .pollRd1 := by
  decide
theorem test_ppbw1 : ended (exec (.ppbw1 0x9000) (inPhase .ppbCmd1 .write .writeOne (.ok 0))) =
    some ⟨.write 0x9000 0xA0, .ok⟩ := by decide
theorem test_ppbw2 : (after (exec (.ppbw2 0x9000) (inPhase .ppbCmd2 .write .writeOne (.ok 0)))).ph = .ppbSlo := by
  decide
theorem test_ppbr1 : (after (exec (.ppbr1 0x9000) (inPhase .ppbCmd1 .read .readOne (.ok 0)))).ph = .ppbStat := by
  decide
theorem test_seclo :
    ended (exec (.seclo 0x9002 3) { inPhase .ppbSlo .write .writeOne (.ok 0) with sect := 3 }) =
      some ⟨.write 0x9002 0x03, .ok⟩ := by decide
theorem test_sechi : ended (exec (.sechi 0x9003) (inPhase .ppbShi .write .writeOne (.ok 0))) =
    some ⟨.write 0x9003 0x00, .ok⟩ := by decide
theorem test_exit1 : ended (exec (.exit1 0x9000) (inPhase .ppbExit1 .read .readOne (.ok 0))) =
    some ⟨.write 0x9000 0x90, .ok⟩ := by decide
theorem test_exit2 : (after (exec (.exit2 0x9000) (inPhase .ppbExit2 .read .readOne (.ok 0)))).ph = .ppbRet := by decide
-- T21: bank 0x555 is 62 98 00 1A; T20: sector 255 (bank 0x7F8) is 77 9C 00 10
theorem test_sel0 :
    ended (exec (.sel0 0x5000 (.direct 2 2)) { inPhase .prgSel0 .program .none (.ok 0) with bank := 0x555 }) =
      some ⟨.write 0x5000 0x62, .ok⟩ := by decide
theorem test_sel1_ppb :
    ended (exec (.sel1 0x5001 (.direct 1 3)) { inPhase .ppbSel1 .write .writeOne (.ok 0) with sect := 255 }) =
      some ⟨.write 0x5001 0x9C, .ok⟩ := by decide
theorem test_sel2 : (after (exec (.sel2 0x5002) (inPhase .vfySel2 .program .none (.ok 0)))).ph = .vfySel3 := by decide
theorem test_sel3_sector_start :
    (after (exec (.sel3 0x5003 (.direct 0)) { inPhase .prgSel3 .program .none (.ok 0) with bank := 8 })).ph =
      .prgErase := by decide
theorem test_sel3_mid_sector :
    (after (exec (.sel3 0x5003 (.direct 1)) { inPhase .prgSel3 .program .none (.ok 0) with bank := 9 })).ph =
      .prgPage := by decide
-- outbank 0xC7: bits 7, 6, 2, 1, 0 all set; bits 5, 4 clear; bit 3 reaches no register
theorem test_sel0_scrambled :
    ended (exec (.sel0 0x5000 (.scrambled 31)) { inPhaseScr .prgSel0 .program (.ok 0) with bank := 0x63F }) =
      some ⟨.write 0x5000 31, .ok⟩ := by decide
theorem test_hs1 :
    ended (exec (.hs1 0x6000 7) { inPhaseScr .prgHs1 .program (.ok 0) with bank := 0xF }) =
      some ⟨.write 0x6000 7, .ok⟩ := by decide
theorem test_hs2 : (after (exec (.hs2 0x6001 0x80) (inPhaseScr .vfyHs2 .program (.ok 0)))).ph = .vfyCrc := by decide

-- T1, T21, T23
theorem test_translate :
    [0x000#11, 0x555#11, 0x123#11].map (fun b => (after (exec (.translate b .direct) rest)).probe) =
      [.regs ⟨0x40, 0x80, 0x00, 0x10⟩, .regs ⟨0x62, 0x98, 0x00, 0x1A⟩, .regs ⟨0x44, 0x88, 0x00, 0x16⟩] := by decide
-- K3, K10
theorem test_crc16 :
    [[0x01#8], [0x31, 0x32, 0x33, 0x34, 0x35, 0x36, 0x37, 0x38, 0x39]].map
      (fun bytes => (after (exec (.crc16 bytes) rest)).probe) = [.crc 0xC0C1, .crc 0xBB3D] := by decide +kernel
theorem test_poll_sleep : after (exec .poll (inPhase .pollSleep .write .writeOne .wait)) =
    inPhase .pollRd1 .write .writeOne .wait := by decide
theorem test_poll_settle : (after (exec .poll (inPhase .pollSettle .write .writeOne .wait))).ph = .ppbStat := by decide
theorem test_verifyPass_skip :
    let t := after (exec .verifyPass { inPhase .vfyHead .program .none .wait with bankcount := 16, badmap := 1 })
    t.bank = 8 ∧ t.ph = .vfyHead ∧ t.events = [] := by decide
theorem test_verifyPass_end :
    let t := after (exec .verifyPass { inPhase .vfyHead .program .none .wait with
      bankcount := 1, bank := 1, mmExp := 5, mmAct := 5, errcnt := 2 })
    t.status = 0x0042 ∧ t.mmExp = 0 ∧ t.ph = .idle := by decide

/-! ### The internal phases -/

theorem test_check_order :
    (after (step { inPhase .prgCheck .program .none .wait with bankcount := 2049, capacity := 0 })).result.code = 7 := by
  decide
theorem test_check_equal_fits :
    (after (step { inPhase .prgCheck .program .none .wait with bankcount := 1, capacity := 0x4000 })).ph = .prgReset := by
  decide
theorem test_check_one_over :
    (after (step { inPhase .prgCheck .program .none .wait with bankcount := 1, capacity := 0x3FFF })).status = 0x0006 := by
  decide
theorem test_retry_rewinds :
    let t := after (step { inPhase .prgRetry .program .writeOne .wait with bank := 13, errcnt := 1 })
    t.bank = 8 ∧ t.errcnt = 2 ∧ t.ph = .prgRreset ∧ t.ppbop = .none := by decide
theorem test_retry_third_is_fatal :
    let t := after (step { inPhase .prgRetry .program .none .wait with bank := 13, errcnt := 2 })
    t.bank = 13 ∧ t.status = 0x006A ∧ t.ph = .idle := by decide
theorem test_lock_last_bank :
    let t := after (step { inPhase .prgLock .program .none .wait with bank := 9, bankcount := 10 })
    t.sect = 1 ∧ t.ppbop = .writeOne ∧ t.ph = .ppbSel0 := by decide
theorem test_lock_not_due :
    (after (step { inPhase .prgLock .program .none .wait with bank := 8, bankcount := 10 })).ph = .prgNext := by decide
theorem test_ppbRet_lock : (after (step (inPhase .ppbRet .program .writeOne .wait))).ph = .prgNext := by decide
theorem test_ppbRet_command : (after (step (inPhase .ppbRet .read .readOne .wait))).status = 0x0002 := by decide
theorem test_waiting :
    let t := after (step (inPhase .ppbEnt1 .write .writeOne .wait))
    t.ph = .ppbEnt1 ∧ t.outstanding = some (.write 0x8AAA 0xAA) ∧ t.busy = true := by decide

/-! ### A word of the table, placed and run by the next step -/

theorem test_fetch_ppbWrite : (after (step (State.reset.withFetchWord 16 0x0302))).sect = 3 := by decide
theorem test_fetch_sel3 : ended (step (State.reset.withFetchWord 24 0x50031A)) = some ⟨.write 0x5003 0x1A, .ok⟩ := by
  decide
theorem test_fetch_rst : ended (step (State.reset.withFetchWord 8 1)) = some ⟨.reset, .ok⟩ := by decide

/-! ### Witnesses: a state and operands that meet the hypotheses of each statement -/

theorem witness_CommandAcceptance :
    rest.busy = false ∧ rest.dialectConfigured .direct = true ∧ restScr.busy = false ∧
      restScr.dialectConfigured .scrambled = true ∧ (inPhase .ppbEnt1 .read .readOne .wait).busy = true ∧
      isCommand (.illegalRsv 0 .direct false 1 0) = true := by decide
theorem witness_IllegalCommands :
    rest.busy = false ∧ (0x0020#16).extractLsb' 5 3 ≠ 0 ∧ (0x0080#16).extractLsb' 5 3 ≠ 0 ∧
      5 ≤ ((0x0005#16).extractLsb' 0 3).toNat ∧ 5 ≤ ((0x0007#16).extractLsb' 0 3).toNat := by decide
theorem witness_ScrambledUnconfiguredRefused : rest.cfg.scr = none ∧ rest.busy = false := by decide
theorem witness_BusyIgnoresHostWrites :
    let s := inPhase .ppbEnt1 .read .readOne .wait
    s.busy = true ∧ { s with inbox := [.write 0 5] }.inbox = .write 0 5 :: [] ∧
      { s with inbox := [.writeImage 0x1FFFFFF 5] }.inbox = .writeImage 0x1FFFFFF 5 :: [] ∧
      { s with inbox := [.read 11, .pass] }.inbox = .read 11 :: [.pass] := by decide
theorem witness_HostRegisterFile :
    rest.busy = false ∧ ∀ n ∈ [1, 2, 3, 4, 9, 10, 11],
      n ≠ 0 ∧ { rest with inbox := [.write n 5] }.inbox = .write n 5 :: [] := by decide
theorem witness_StatusWord :
    ({ rest with inbox := [.write 1 0xFFFF] } : State).inbox = .write 1 0xFFFF :: [] := rfl
theorem witness_ImageWrite :
    rest.busy = false ∧ { rest with inbox := [.writeImage 0x1FFFFFF 5] }.inbox = .writeImage 0x1FFFFFF 5 :: [] ∧
      Memory.wf rest.img := by decide
theorem witness_SliceOfBank_none : Memory.wf rest.img ∧ rest.slice = none := by decide
theorem covers_zeroBank : Memory.covers zeroBank 0 0x4000 = true := by decide +kernel
theorem slice_zeroBank (s : State) (hb : s.bank.toNat = 0) :
    ({ s with img := zeroBank } : State).slice.isSome = true := by
  simp only [State.slice, hb, Config.bankBytes_eq, Nat.zero_mul, covers_zeroBank, if_true, Option.isSome_some]
theorem witness_SliceOfBank_some :
    Memory.wf zeroBank ∧ { rest with img := zeroBank }.slice.isSome = true := by
  refine ⟨⟨?_, ?_⟩, slice_zeroBank rest rfl⟩
  · simp only [zeroBank, List.pairwise_map]
    exact List.pairwise_lt_range
  · intro c hc
    obtain ⟨k, hk, rfl⟩ := List.mem_map.1 hc
    have := List.mem_range.1 hk
    simp only [Fixed.source, Config.imageBytes] at *
    omega
theorem witness_HardwareReset :
    { inPhase .ppbEnt1 .read .readOne .wait with
      inbox := [.hardwareReset], outstanding := some .reset }.inbox = .hardwareReset :: [] := by decide
theorem witness_DirectTranslationInjective :
    (0x7F8#11).toNat / 8 = (0x7FF#11).toNat / 8 ∧ translateBank config 0x7F8 .direct = some (translateDirect 0x7F8) ∧
      translateBank config 0x7FF .direct = some (translateDirect 0x7FF) := by decide
theorem witness_ScrambledTranslation :
    restScr.cfg.scr = some scrambled ∧
      translateBank restScr.cfg 0x63F .scrambled = some ⟨31, 0x40, 0, 0⟩ ∧
      translateBank restScr.cfg 0x040 .scrambled = some ⟨0, 0x40, 0, 0⟩ ∧
      (∀ n ∈ [0, 1, 2, 6, 7], ((0x000#11).toNat / 8).testBit n = ((0x040#11).toNat / 8).testBit n) ∧
      (∀ n ∈ [4, 5], ((0x000#11).toNat / 8).testBit n = ((0x67F#11).toNat / 8).testBit n) := by decide
theorem witness_PureFunctionRows :
    rest.dialectConfigured .direct = true ∧ restScr.dialectConfigured .scrambled = true := by decide
theorem witness_CrcDetectsOneByte : (0x00#8) ≠ 0x01 ∧ (0x7F#8) ≠ 0xFF := by decide
theorem witness_PhaseTable : ∀ ph, (inPhase ph .write .writeOne .wait).ph = ph ∧
    ∀ op, (inPhase ph .write op .wait).ppbop = op := fun _ => ⟨rfl, fun _ => rfl⟩
theorem witness_ResetTransaction :
    ∀ r ∈ [Reply.ok 0, .fail], ∀ ph ∈ [Phase.prgReset, .prgRreset, .vfyReset],
      (inPhase ph .program .none r).reply ≠ .wait ∧ (inPhase ph .program .none r).ph = ph := by decide
theorem witness_BankSelectWrites_program :
    ∀ ph ∈ [Phase.prgSel0, .prgSel1, .prgSel2, .prgSel3, .vfySel0, .vfySel1, .vfySel2, .vfySel3],
      let s := { inPhase ph .program .none (.ok 7) with bank := 0x7FF }
      s.reply = .ok 7 ∧ (0x7FF#11).toNat = s.selected % 2048 ∧ s.ph.selIndex.isSome = true ∧
        translateBank s.cfg 0x7FF s.dialect = some (translateDirect 0x7FF) := by decide
theorem witness_BankSelectWrites_ppb :
    ∀ ph ∈ [Phase.ppbSel0, .ppbSel1, .ppbSel2, .ppbSel3],
      let s := { inPhase ph .write .writeOne (.ok 7) with sect := 255 }
      s.reply = .ok 7 ∧ (0x7F8#11).toNat = s.selected % 2048 ∧ s.ph.selIndex.isSome = true ∧
        translateBank s.cfg 0x7F8 s.dialect = some (translateDirect 0x7F8) := by decide
theorem witness_BankSelectWrites_scrambled :
    ∀ ph ∈ [Phase.prgSel0, .prgSel1, .prgSel2, .prgSel3],
      let s := { inPhaseScr ph .program (.ok 7) with bank := 0x63F }
      s.reply = .ok 7 ∧ (0x63F#11).toNat = s.selected % 2048 ∧
        translateBank s.cfg 0x63F s.dialect = some ⟨31, 0x40, 0, 0⟩ := by decide
theorem witness_EraseTransaction :
    (inPhase .prgErase .program .none (.ok 0)).reply = .ok 0 ∧
      (inPhase .prgErase .program .none (.ok 0)).ph = .prgErase ∧
      (inPhaseScr .prgErase .program (.ok 0)).reply = .ok 0 := by decide
theorem witness_HalfBankSelectWrites :
    ∀ ph ∈ [Phase.prgHs1, .prgHs2, .vfyHs1, .vfyHs2],
      let s := { inPhaseScr ph .program (.ok 0) with bank := 15 }
      s.reply = .ok 0 ∧ s.dialect = .scrambled ∧ s.cfg.scr = some scrambled ∧
        (7 : Fin 8).val = s.bank.toNat % 8 ∧ s.ph = ph := by decide
theorem witness_PageTransaction :
    (inPhase .prgPage .program .none (.ok 0)).reply = .ok 0 ∧
      (inPhase .prgPage .program .none (.ok 0)).ph = .prgPage ∧ (0x8000#16).toNat = config.prg.val ∧
      { inPhase .prgPage .program .none (.ok 0) with img := zeroBank }.slice.isSome = true := by
  refine ⟨by decide, by decide, by decide, slice_zeroBank (inPhase .prgPage .program .none (.ok 0)) rfl⟩
theorem witness_UnwrittenImageRefused :
    (0x8000#16).toNat = config.prg.val ∧ ∀ ph ∈ [Phase.prgPage, .vfyCrc],
      (inPhase ph .program .none (.ok 0)).slice = none ∧ (inPhase ph .program .none (.ok 0)).ph = ph := by decide
theorem witness_CrcTransaction :
    (inPhase .vfyCrc .program .none (.ok 0)).reply = .ok 0 ∧
      (inPhase .vfyCrc .program .none (.ok 0)).ph = .vfyCrc ∧ (0x8000#16).toNat = config.prg.val ∧
      { inPhase .vfyCrc .program .none (.ok 0) with img := zeroBank }.slice.isSome = true := by
  refine ⟨by decide, by decide, by decide, slice_zeroBank (inPhase .vfyCrc .program .none (.ok 0)) rfl⟩
/-- Both outcomes of the comparison occur: an answer equal to the expected CRC, and one that differs. -/
theorem witness_CrcTransaction_both (bytes : List Byte) :
    (∃ rd, crc16 config bytes = rd) ∧ ∃ rd, crc16 config bytes ≠ rd :=
  ⟨⟨_, rfl⟩, crc16 config bytes + 1, fun h => by
    have := congrArg BitVec.toNat h
    rw [BitVec.toNat_add] at this
    have := (crc16 config bytes).isLt
    simp at *⟩
theorem witness_CommandSetEntry :
    ∀ ph ∈ [Phase.ppbEnt1, .ppbEnt2, .ppbEnt3],
      (inPhase ph .read .readOne (.ok 9)).reply = .ok 9 ∧ (inPhase ph .read .readOne (.ok 9)).ph = ph := by decide
theorem witness_PpbCommandCycles :
    ∀ ph ∈ [Phase.ppbCmd1, .ppbCmd2, .ppbSlo, .ppbShi], ∀ op ∈ [PpbOp.eraseAll, .writeOne, .readOne],
      let s := inPhase ph .write op (.ok 9)
      s.reply = .ok 9 ∧ s.ph = ph ∧ s.ppbop = op := by decide
theorem witness_CommandSetExit :
    ∀ ph ∈ [Phase.ppbExit1, .ppbExit2],
      let s := inPhase ph .read .readOne (.ok 9)
      s.reply = .ok 9 ∧ s.ph = ph ∧ (s.cfg.ex = none ∧ (0x9000 : Addr) = s.cfg.st) ∧
        { s with cfg := { config with ex := some 0x9001 } }.cfg.ex = some 0x9001 := by decide
theorem witness_WriteIsItsCycle :
    let s := inPhase .ppbEnt1 .read .readOne (.ok 9)
    s.instrAt = some .ent1 ∧ Instr.ent1.cycle = some (0x8AAA, 0xAA) ∧ s.reply = .ok 9 := by decide
theorem witness_StatusCheck :
    (∀ (op : PpbOp) (rd : BitVec 16),
      let s := inPhase .ppbStat .write op (.ok rd)
      s.reply = .ok rd ∧ s.ph = .ppbStat ∧ s.ppbop = op) ∧
    ((0xFE#16).extractLsb' 0 8).getLsbD 0 = false ∧ ((0x01#16).extractLsb' 0 8).getLsbD 0 = true :=
  ⟨fun _ _ => ⟨rfl, rfl, rfl⟩, by decide, by decide⟩
-- Q1 to Q8 as pairs (S1, S2), and the follow-up pairs `60 60` (stable) and `60 20` (toggling)
theorem witness_PollReads :
    (∀ (ph : Phase) (rd : BitVec 16),
      (inPhase ph .write .writeOne (.ok rd)).reply = .ok rd ∧ (inPhase ph .write .writeOne (.ok rd)).ph = ph) ∧
    (0x60#8).getLsbD 6 = ((0x60#16).extractLsb' 0 8).getLsbD 6 ∧
    (0x60#8).getLsbD 6 ≠ ((0x20#16).extractLsb' 0 8).getLsbD 6 :=
  ⟨fun _ _ => ⟨rfl, rfl⟩, by decide, by decide⟩
theorem witness_PollRow :
    ∀ ph ∈ [Phase.pollSleep, .pollSettle, .pollRd1, .pollRd2, .pollRd3, .pollRd4],
      (inPhase ph .write .writeOne .wait).ph = ph := by decide
theorem witness_VerifyPassRow :
    (∀ ph ∈ [Phase.vfyHead, .vfyNext], (inPhase ph .program .none .wait).ph = ph) ∧
    (∀ ph ∈ [Phase.vfyReset, .vfyHead, .vfySel0, .vfySel1, .vfySel2, .vfySel3, .vfyCrc, .vfyNext],
      (inPhase ph .program .none .wait).ph.routine = 2 ∧ (inPhase ph .program .none .wait).instrAt.isSome = true) := by
  decide
/-- The host has nothing to do; it passes. -/
theorem turn_of_no_host (ph : Phase) (op : Op) (ppbop : PpbOp) (r : Reply) :
    (inPhase ph op ppbop r).sequencerTurn (inPhase ph op ppbop r) := .inl ⟨rfl, rfl⟩
theorem turn_of_pass (ph : Phase) (op : Op) (ppbop : PpbOp) (r : Reply) :
    { inPhase ph op ppbop r with inbox := [.pass, .read 1] }.sequencerTurn
      { inPhase ph op ppbop r with inbox := [.read 1] } := .inr ⟨_, rfl, rfl⟩
theorem witness_ProgramChecks :
    let s := inPhase .prgCheck .program .none .wait
    s.sequencerTurn s ∧ s.ph = .prgCheck := ⟨turn_of_no_host .., rfl⟩
theorem witness_ProgramHead :
    let s := inPhase .prgHead .program .none .wait
    s.sequencerTurn s ∧ s.ph = .prgHead := ⟨turn_of_no_host .., rfl⟩
theorem witness_LockAndNext :
    ∀ ph : Phase,
    let s := inPhase ph .program .none .wait
    s.sequencerTurn s ∧ s.ph = ph := fun _ => ⟨turn_of_no_host .., rfl⟩
theorem witness_RetryDecision :
    ∀ e : BitVec 2,
      let s := { inPhase .prgRetry .program .none .wait with errcnt := e }
      s.sequencerTurn s ∧ s.ph = .prgRetry := fun _ => ⟨.inl ⟨rfl, rfl⟩, rfl⟩
theorem witness_PpbReturn :
    ∀ op : Op,
      let s := inPhase .ppbRet op .writeOne .wait
      s.sequencerTurn s ∧ s.ph = .ppbRet := fun _ => ⟨turn_of_no_host .., rfl⟩
theorem witness_FailureDispatch :
    ∀ op ∈ [Op.program, .write],
      let s := inPhase .ppbEnt1 op .writeOne .fail
      s.reply = .fail ∧ s.instrAt = some .ent1 ∧ s.request = some (.write 0x8AAA 0xAA) := by decide
theorem witness_FailureDispatch_verify :
    let s := inPhase .vfySel2 .program .none .fail
    s.reply = .fail ∧ s.instrAt = some (.sel2 0x5002) ∧ s.request = some (.write 0x5002 0x00) := by decide
theorem witness_FailureDispatch_erase :
    let s := inPhase .prgErase .program .none .fail
    s.reply = .fail ∧ s.instrAt = some (.erase .direct) ∧ s.request = some (.eraseSector .direct) ∧
      s.outstanding = none ∧ { s with outstanding := s.request }.outstanding = some (.eraseSector .direct) := by decide
theorem witness_UnansweredHolds :
    let s := inPhase .ppbStat .read .readOne .wait
    s.reply = .wait ∧ s.instrAt = some (.r 0x9000) ∧ s.request = some (.read 0x9000 1) := by decide
theorem witness_StepRunsInstruction :
    (Instr.illegalRsv 7 .scrambled true 7 255).wf = true ∧
      encode (.illegalRsv 7 .scrambled true 7 255) = some (.cmd16 0xFFFF) ∧
      { rest with inbox := [.write 0 ((0xFFFF#16).setWidth 256)] }.inbox = [.write 0 ((0xFFFF#16).setWidth 256)] := by
  decide
theorem witness_StepRunsInstruction_turn :
    let u := { inPhase .ppbEnt1 .read .readOne .wait with inbox := [.read 1] }
    { inPhase .ppbEnt1 .read .readOne .wait with inbox := [.pass, .read 1] }.sequencerTurn u ∧
      u.instrAt = some .ent1 ∧ rest.sequencerTurn rest ∧ rest.ph = .idle :=
  ⟨turn_of_pass .., rfl, .inl ⟨rfl, rfl⟩, rfl⟩
theorem witness_EncodeDecodeCommand :
    (Instr.nop .scrambled true 255).wf = true ∧ encode (.nop .scrambled true 255) = some (.cmd16 0xFF18) := by decide
theorem witness_IssuedRowsDecode :
    (inPhase .ppbEnt1 .read .readOne .wait).instrAt = some .ent1 ∧ encode .ent1 = some (.cyc24 0x8AAAAA) ∧
      (inPhase .prgPage .program .none .wait).instrAt = some (.pgm 0x8000 .direct) ∧
      encode (.pgm 0x8000 .direct) = some (.busreq 0x0000800005) := by decide
theorem witness_DecodeEncode :
    (Instr.pgm 0xC000 .scrambled).wf = true ∧ (Instr.pgm 0xC000 .scrambled).cycle = none ∧
      encode (.pgm 0xC000 .scrambled) = some (.busreq 0x0100C00005) ∧
      (Instr.sel0 0xFFFF (.direct 3 7)).cycleIn ⟨.vfySel0, .none, .direct⟩ = true ∧
      encode (.sel0 0xFFFF (.direct 3 7)) = some (.cyc24 0xFFFF77) := by decide
/-- A lock inside PROGRAM, in the middle of command-set entry. -/
def inLock : State :=
  { inPhase .ppbEnt1 .program .writeOne (.ok 0) with bankcount := 1, capacity := 0x4000 }
/-- `PROGRAM` with bank 8 of nine in hand, sector 0 being bad. -/
def bankInHand : State :=
  { inPhase .prgSel0 .program .none (.ok 0) with bank := 8, bankcount := 9, capacity := 0x24000, badmap := 1 }
theorem running_inLock : Running inLock :=
  ⟨by decide, by decide, by decide, by decide, by decide, by decide⟩
theorem running_bankInHand : Running bankInHand :=
  ⟨by decide, by decide, by decide, by decide, by decide, by decide⟩
theorem good_inLock : inLock.Good :=
  good_of_ppb running_inLock (by decide) (by decide) (by decide) (by decide) (by decide)
    fun _ => ⟨⟨running_inLock, by decide, by decide, by decide, by decide⟩, by decide, by decide, by decide⟩
theorem good_bankInHand : bankInHand.Good :=
  good_of_programming ⟨running_bankInHand, by decide, by decide, by decide, by decide⟩ (by decide) (by decide)
    (by decide) (by decide) (by decide) (by decide) (by decide) (by decide) (by decide)
theorem witness_StepKeepsGood : inLock.Good ∧ ∃ t, step inLock = .next t :=
  ⟨good_inLock, _, rfl⟩
theorem witness_GoodStepsAreNext :
    bankInHand.Good ∧ bankInHand.inbox = [] ∧ ¬(bankInHand.ph = .prgPage ∨ bankInHand.ph = .vfyCrc) :=
  ⟨good_bankInHand, by decide, by decide⟩
/-- One bank, in a transfer phase of PROGRAM or of the verify pass. -/
def inTransfer (ph : Phase) (img : List Host.Cell) : State :=
  { inPhase ph .program .none .wait with bankcount := 1, capacity := 0x4000, img := img }
theorem good_inTransfer (ph : Phase) (hph : ph = .prgPage ∨ ph = .vfyCrc) (img : List Host.Cell)
    (hw : Memory.wf img) : (inTransfer ph img).Good := by
  have hs : (inTransfer ph img).sectorBad = false := by simp [State.sectorBad, inTransfer, inPhase, rest, State.reset]
  have p : Programming (inTransfer ph img) := by
    refine ⟨⟨hw, rfl, rfl, rfl, ?_, rfl⟩, rfl, ?_, ?_, ?_⟩ <;>
      simp [inTransfer, inPhase, rest, State.reset, State.bankcountIllegal, State.capacityExceeded]
  have hd : (inTransfer ph img).imageDone = false := by simp [State.imageDone, inTransfer, inPhase, rest, State.reset]
  rcases hph with rfl | rfl
  all_goals
    exact good_of_programming p (by simp [inTransfer, inPhase]) rfl
      (by simp [inTransfer, inPhase, Phase.routine, Phase.code]) (fun _ => rfl) (fun _ => rfl) (fun _ => ⟨hd, hs⟩)
      (by simp [inTransfer, inPhase]) (by simp [inTransfer, inPhase])
      (by simp [inTransfer, inPhase, halfSelectPhase])
theorem witness_GoodStepsAreNext_written :
    ∀ ph, ph = .prgPage ∨ ph = .vfyCrc →
      (inTransfer ph zeroBank).Good ∧ (inTransfer ph zeroBank).inbox = [] ∧ (inTransfer ph zeroBank).slice ≠ none :=
  fun ph h => ⟨good_inTransfer ph h zeroBank witness_SliceOfBank_some.1, rfl,
    Option.isSome_iff_ne_none.1 (slice_zeroBank (inTransfer ph []) rfl)⟩
theorem witness_BadSectorsNeverTargeted :
    bankInHand.Good ∧ Host.Core.run Sys2Proof.core 0 bankInHand = .next bankInHand ∧ bankInHand.bankInHand :=
  ⟨good_bankInHand, rfl, .inl (by decide)⟩
theorem witness_BadSectorsNeverTargeted_lock :
    inLock.Good ∧ Host.Core.run Sys2Proof.core 0 inLock = .next inLock ∧ inLock.bankInHand ∧ inLock.ph.routine = 3 :=
  ⟨good_inLock, rfl, .inr ⟨by decide, by decide⟩, by decide⟩
theorem witness_RunningCommandConstants :
    inLock.busy = true ∧ inLock.inbox.head? ≠ some .hardwareReset ∧ ∃ t, step inLock = .next t :=
  ⟨by decide, by decide, _, rfl⟩
theorem request_page (s : State) (hp : s.ph = .prgPage) (hs : s.slice.isSome = true) : s.request.isSome = true := by
  simp only [State.request, State.instrAt, hp, Option.isSome_map, hs]
theorem request_crc (s : State) (hp : s.ph = .vfyCrc) (hs : s.slice.isSome = true) : s.request.isSome = true := by
  simp only [State.request, State.instrAt, hp, Option.isSome_map, hs]
theorem witness_RequestsOfTheTable :
    (inPhase .ppbStat .read .readOne .wait).request = some (.read 0x9000 1) ∧
      (inPhase .prgErase .program .none .wait).request = some (.eraseSector .direct) ∧
      (inPhase .prgReset .program .none .wait).request = some .reset ∧
      (inPhase .ppbEnt2 .read .readOne .wait).request = some (.write 0x8555 0x55) ∧
      { inPhase .prgPage .program .none .wait with img := zeroBank }.request.isSome = true ∧
      { inPhase .vfyCrc .program .none .wait with img := zeroBank }.request.isSome = true := by
  refine ⟨by decide, by decide, by decide, by decide, ?_, ?_⟩
  · exact request_page _ rfl (slice_zeroBank (inPhase .prgPage .program .none .wait) rfl)
  · exact request_crc _ rfl (slice_zeroBank (inPhase .vfyCrc .program .none .wait) rfl)
theorem witness_OneTransactionPerStep : inLock.inbox = [] ∧ ∃ t, step inLock = .next t :=
  ⟨by decide, _, rfl⟩
theorem witness_PollUnbounded :
    let pairs : List (Byte × Byte) := [(0x40, 0x00), (0x00, 0x60)]
    let s := { inPhase .pollRd1 .write .writeOne .wait with script := [.ok 0x40, .ok 0x00, .ok 0x00, .ok 0x60] }
    s.ph = .pollRd1 ∧ s.inbox = [] ∧ (∀ p ∈ pairs, p.1.getLsbD 6 ≠ p.2.getLsbD 6 ∧ p.1.getLsbD 5 = false) ∧
      s.script = pairs.flatMap (fun p => [.ok (p.1.setWidth 16), .ok (p.2.setWidth 16)]) ++ [] :=
  ⟨rfl, rfl, by simp, rfl⟩
theorem witness_PpbReadCommand :
    let s := { rest with
      inbox := [.write 0 ((commandWord 3 .direct false 0 5).setWidth 256)], script := List.replicate 11 (.ok 0) }
    s.ph = .idle ∧ s.busy = false ∧ s.dialectConfigured .direct = true ∧
      translateBank s.cfg (BitVec.ofNat 11 (8 * (5#8).toNat)) .direct = some (translateDirect 40) ∧
      s.script = [.ok 0, .ok 0, .ok 0, .ok 0, .ok 0, .ok 0, .ok 0, .ok 0, .ok 0, .ok 0, .ok 0] ++ [] := by decide
theorem witness_WriteOneRoutine :
    let s := { inPhase .ppbSel0 .program .writeOne .wait with sect := 255, script := List.replicate 16 (.ok 0) }
    s.ph = .ppbSel0 ∧ s.ppbop = .writeOne ∧ s.inbox = [] ∧
      translateBank s.cfg (BitVec.ofNat 11 (8 * s.sect.toNat)) s.dialect = some (translateDirect 0x7F8) ∧
      (0#16).getLsbD 6 = (0#16).getLsbD 6 ∧ (0#16).getLsbD 0 = false ∧
      s.script = [.ok 0, .ok 0, .ok 0, .ok 0, .ok 0, .ok 0, .ok 0, .ok 0, .ok 0, .ok 0, .ok 0, .ok 0, .ok 0, .ok 0,
        .ok 0, .ok 0] ++ [] := by decide
theorem witness_EraseAllRoutine :
    let s := { inPhase .ppbSel0 .eraseAll .eraseAll .wait with script := List.replicate 14 (.ok 1) }
    s.ph = .ppbSel0 ∧ s.ppbop = .eraseAll ∧ s.sect = 0 ∧ s.inbox = [] ∧
      translateBank s.cfg 0 s.dialect = some (translateDirect 0) ∧
      (1#16).getLsbD 6 = (1#16).getLsbD 6 ∧ (1#16).getLsbD 0 = true ∧
      s.script = [.ok 1, .ok 1, .ok 1, .ok 1, .ok 1, .ok 1, .ok 1, .ok 1, .ok 1, .ok 1, .ok 1, .ok 1, .ok 1,
        .ok 1] ++ [] := by decide

end Sys2Proof.Tests
end

/-! SUPPORT. What the current phase issues, and the one transaction it runs: the facts about `State.instrAt`,
`exec` and `runPhase` that the rules about whole steps use. -/

namespace Sys2Proof.Machine

/-! ### What a phase issues -/

/-- The rows a phase can issue, with the phases that issue them (R30, R97). -/
inductive Issues (s : State) : Instr → Prop where
  | rst (h : s.ph = .prgReset ∨ s.ph = .prgRreset ∨ s.ph = .vfyReset) : Issues s .rst
  | r (h : s.ph = .pollRd1 ∨ s.ph = .pollRd2 ∨ s.ph = .pollRd3 ∨ s.ph = .pollRd4 ∨ s.ph = .ppbStat) :
    Issues s (.r s.cfg.st)
  | erase (h : s.ph = .prgErase) : Issues s (.erase s.dialect)
  | pgm (h : s.ph = .prgPage) : Issues s (.pgm (prgAddr s.cfg) s.dialect)
  | crc (h : s.ph = .vfyCrc) : Issues s (.crc (prgAddr s.cfg))
  | poll (h : s.ph = .pollSleep ∨ s.ph = .pollSettle) : Issues s .poll
  | verifyPass (h : s.ph = .vfyHead ∨ s.ph = .vfyNext) : Issues s .verifyPass
  | cycle {i : Instr} {p : Addr × Byte} (hc : i.cycle = some p) (h : i.cycleIn s.cycleContext = true) : Issues s i

theorem sel0_ofByte_dialect {d : Dialect} {x : Byte} {y : Sel0Data} (h : Sel0Data.ofByte d x = some y) :
    y.dialect = d := by
  cases d with
  | direct => simp only [Sel0Data.ofByte, Option.ite_none_right_eq_some, Option.some.injEq] at h; rw [← h.2]; rfl
  | scrambled => cases h; rfl

theorem sel1_ofByte_dialect {d : Dialect} {x : Byte} {y : Sel1Data} (h : Sel1Data.ofByte d x = some y) :
    y.dialect = d := by
  cases d with
  | direct => simp only [Sel1Data.ofByte, Option.ite_none_right_eq_some, Option.some.injEq] at h; rw [← h.2]; rfl
  | scrambled => cases h; rfl

theorem sel3_ofByte_dialect {d : Dialect} {x : Byte} {y : Sel3Data} (h : Sel3Data.ofByte d x = some y) :
    y.dialect = d := by
  cases d with
  | direct => simp only [Sel3Data.ofByte, Option.ite_none_right_eq_some, Option.some.injEq] at h; rw [← h.2]; rfl
  | scrambled => simp only [Sel3Data.ofByte, Option.ite_none_right_eq_some, Option.some.injEq] at h; rw [← h.2]; rfl

/-- The half-bank select writes exist in the scrambled dialect only (R149). -/
theorem halfSelect_scrambled {s : State} {p : (Addr × Byte) × (Addr × Byte)} (h : s.halfSelect = some p) :
    s.dialect = .scrambled := by
  unfold State.halfSelect at h
  split at h
  · cases h
  · assumption

theorem instrAt_issues {s : State} {i : Instr} (h : s.instrAt = some i) : Issues s i := by
  cases hp : s.ph <;>
    simp only [State.instrAt, hp, reduceCtorEq, Option.some.injEq, Option.pure_def, Option.bind_eq_bind,
      Option.bind_eq_some_iff, Option.map_eq_some_iff] at h
  case prgReset | prgRreset | vfyReset => subst h; exact .rst (by simp [hp])
  case prgSel0 | vfySel0 | ppbSel0 =>
    obtain ⟨_, _, d, hd, rfl⟩ := h
    exact .cycle rfl (by simp [Instr.cycleIn, State.cycleContext, Phase.selIndex, hp, sel0_ofByte_dialect hd])
  case prgSel1 | vfySel1 | ppbSel1 =>
    obtain ⟨_, _, d, hd, rfl⟩ := h
    exact .cycle rfl (by simp [Instr.cycleIn, State.cycleContext, Phase.selIndex, hp, sel1_ofByte_dialect hd])
  case prgSel2 | vfySel2 | ppbSel2 =>
    subst h; exact .cycle rfl (by simp [Instr.cycleIn, State.cycleContext, Phase.selIndex, hp])
  case prgSel3 | vfySel3 | ppbSel3 =>
    obtain ⟨_, _, d, hd, rfl⟩ := h
    exact .cycle rfl (by simp [Instr.cycleIn, State.cycleContext, Phase.selIndex, hp, sel3_ofByte_dialect hd])
  case prgErase => subst h; exact .erase hp
  case prgHs1 | vfyHs1 | prgHs2 | vfyHs2 =>
    obtain ⟨p, hs, rfl⟩ := h
    exact .cycle rfl (by simp [Instr.cycleIn, State.cycleContext, hp, halfSelect_scrambled hs])
  case prgPage => subst h; exact .pgm hp
  case vfyCrc => subst h; exact .crc hp
  case vfyHead | vfyNext => subst h; exact .verifyPass (by simp [hp])
  case ppbCmd1 | ppbCmd2 =>
    cases ho : s.ppbop <;> simp only [ho, reduceCtorEq, Option.some.injEq] at h
    all_goals subst h; exact .cycle rfl (by simp [Instr.cycleIn, State.cycleContext, hp, ho])
  case ppbEnt1 | ppbEnt2 | ppbEnt3 | ppbSlo | ppbShi | ppbExit1 | ppbExit2 =>
    subst h; exact .cycle rfl (by simp [Instr.cycleIn, State.cycleContext, hp])
  case pollRd1 | pollRd2 | pollRd3 | pollRd4 | ppbStat => subst h; exact .r (by simp [hp])
  case pollSleep | pollSettle => subst h; exact .poll (by simp [hp])

/-! ### What an `ok` answer does -/

/-- What the row `i` does with an `ok` answer that carries `rd`: the phase's successor (R30) and the registers that
consume the answer. -/
def afterOk (i : Instr) (rd : BitVec 16) : State → State :=
  match i with
  | .rst => State.afterReset
  | .r _ => State.afterRead rd
  | .erase _ => fun s => s.goto s.afterErase
  | .pgm .. => State.goto .prgLock
  | .crc _ => State.vfyCompare rd
  | .ent1 => State.goto .ppbEnt2
  | .ent2 => State.goto .ppbEnt3
  | .ent3 => State.goto .ppbCmd1
  | .ppbe1 _ | .ppbw1 _ => State.goto .ppbCmd2
  | .ppbe2 _ | .sechi _ => State.goto .pollRd1
  | .ppbw2 _ => State.goto .ppbSlo
  | .ppbr1 _ => State.goto .ppbStat
  | .seclo .. => State.goto .ppbShi
  | .exit1 _ => State.goto .ppbExit2
  | .exit2 _ => State.goto .ppbRet
  | .sel0 .. | .sel1 .. | .sel2 _ => State.nextSelect
  | .sel3 .. => State.endSelect
  | .hs1 .. => State.nextHalf
  | .hs2 .. => State.endHalf
  | .nop .. | .ppbEraseAll .. | .ppbWrite .. | .ppbRead .. | .program ..
  | .illegal5 .. | .illegal6 .. | .illegal7 .. | .illegalRsv ..
  | .w .. | .translate .. | .crc16 .. | .poll | .verifyPass => id

/-- A bus command cycle is the write of its pattern, its answer consumed by `afterOk` (R97). -/
theorem exec_cycle {i : Instr} {a : Addr} {d : Byte} (hc : i.cycle = some (a, d)) (s : State) :
    exec i s = s.emit i a d (afterOk i 0) := by
  cases i <;> cases hc
  case ent1 | ent2 | ent3 => simp [exec, execEnt1, execEnt2, execEnt3, afterOk]
  all_goals rfl

/-- In an `ok` answer to a write there is no data to consume. -/
theorem afterOk_cycle {i : Instr} {p : Addr × Byte} (hc : i.cycle = some p) (rd : BitVec 16) :
    afterOk i rd = afterOk i 0 := by
  cases i <;> cases hc <;> rfl

theorem request_cycle {s : State} {i : Instr} {a : Addr} {d : Byte} (hi : s.instrAt = some i)
    (hc : i.cycle = some (a, d)) : s.request = some (.write a d) := by
  unfold State.request
  rw [hi]
  cases i <;> cases hc <;> rfl

/-! ### The transaction of a step -/

/-- What issuing the row `i` itself does: the erase event (R168) and the expected CRC (R257). -/
def issued (i : Instr) (s : State) : State :=
  match i with
  | .erase _ => s.raiseEraseEvent
  | .crc _ => { s with mmExp := (s.slice.map (crc16 s.cfg)).getD s.mmExp }
  | _ => s

theorem issued_cycle {i : Instr} {p : Addr × Byte} (hc : i.cycle = some p) (s : State) : issued i s = s := by
  cases i <;> cases hc <;> rfl

/-- The states one step of the transaction `req` of the row `i` leads to (R70, R76): it is not answered, it
fails, which `RST` cannot (R121), or its `ok` is consumed. -/
inductive Transacts (i : Instr) (req : BusReq) (s : State) : State → Prop where
  | held : Transacts i req s ((issued i s).hold req)
  | failed (h : i ≠ .rst) : Transacts i req s ((issued i s).answered req .fail).failDispatch
  | done (ans : Answer) (rd : BitVec 16) : Transacts i req s (afterOk i rd ((issued i s).answered req ans))

theorem transact_transacts {i : Instr} {req : BusReq} {s : State} {ok : BitVec 16 → State → State} (h : i ≠ .rst)
    (hok : ∀ rd, ok rd = afterOk i rd) : Transacts i req s ((issued i s).transact req ok State.failDispatch) := by
  cases hr : (issued i s).reply with
  | wait => rw [transact_wait hr]; exact .held
  | fail => rw [transact_fail hr]; exact .failed h
  | ok rd => rw [transact_ok hr, hok]; exact .done _ rd

theorem transactReset_transacts {s : State} : Transacts .rst .reset s (s.transactReset State.afterReset) := by
  by_cases hr : s.reply = .wait
  · rw [transactReset_wait hr]; exact .held
  · rw [transactReset_answered hr]; exact .done _ 0

/-- The internal phases of PROGRAM (R160 to R177), of the verify pass (R254, R259) and of the PPB routine (R215),
and the two delays of the poll (R236, R240). -/
def State.internal (s : State) : State :=
  match s.ph with
  | .prgCheck => s.prgCheck
  | .prgHead => s.prgHead
  | .prgLock => s.prgLock
  | .prgNext => s.prgNext
  | .prgRetry => s.retry
  | .ppbRet => s.ppbRet
  | .vfyHead => s.vfyHead
  | .vfyNext => s.vfyNext
  | .pollSleep => s.goto .pollRd1
  | .pollSettle => s.goto .ppbStat
  | _ => s

/-- A row in the phase that issues it is its one transaction, or an internal step of its sub-sequence. -/
theorem exec_issued {s t : State} {i : Instr} (hi : s.instrAt = some i) (h : exec i s = .next t) :
    (∃ req, s.request = some req ∧ Transacts i req s t) ∨ t = s.internal := by
  cases instrAt_issues hi with
  | rst =>
    refine .inl ⟨.reset, by simp [State.request, hi], ?_⟩
    simp only [exec, execRst, hi, if_true] at h
    cases h
    exact transactReset_transacts
  | r =>
    refine .inl ⟨.read s.cfg.st 1, by simp [State.request, hi], ?_⟩
    simp only [exec, execR, hi, if_true] at h
    cases h
    exact transact_transacts (by simp) fun _ => rfl
  | erase =>
    refine .inl ⟨.eraseSector s.dialect, by simp [State.request, hi], ?_⟩
    simp only [exec, execErase, hi, if_true] at h
    cases h
    exact transact_transacts (by simp) fun _ => rfl
  | pgm =>
    simp only [exec, execPgm, hi, if_true] at h
    split at h
    case h_2 => cases h
    case h_1 bytes hs =>
      refine .inl ⟨.programPage (prgAddr s.cfg) bytes s.dialect true, by simp [State.request, hi, hs], ?_⟩
      cases h
      exact transact_transacts (by simp) fun _ => rfl
  | crc =>
    simp only [exec, execCrc, hi, if_true] at h
    split at h
    case h_2 => cases h
    case h_1 bytes hs =>
      refine .inl ⟨.readCrc16 (prgAddr s.cfg) (BitVec.ofNat 16 s.cfg.bankBytes), by simp [State.request, hi, hs], ?_⟩
      cases h
      have hu : { s with mmExp := crc16 s.cfg bytes } = issued (.crc (prgAddr s.cfg)) s := by simp [issued, hs]
      rw [hu]
      exact transact_transacts (by simp) fun _ => rfl
  | poll hp =>
    refine .inr ?_
    rcases hp with hp | hp <;> simp only [exec, execPoll, hp, sleep_eq] at h <;> cases h <;> simp [State.internal, hp]
  | verifyPass hp =>
    refine .inr ?_
    rcases hp with hp | hp <;> simp only [exec, execVerifyPass, hp] at h <;> cases h <;> simp [State.internal, hp]
  | @cycle _ p hc _ =>
    obtain ⟨a, d⟩ := p
    refine .inl ⟨.write a d, request_cycle hi hc, ?_⟩
    rw [exec_cycle hc, emit_issued hi] at h
    cases h
    have ht : Transacts i (.write a d) s ((issued i s).transact (.write a d) (fun _ => afterOk i 0) _) :=
      transact_transacts (by rintro rfl; cases hc) fun rd => (afterOk_cycle hc rd).symm
    rwa [issued_cycle hc] at ht

/-- One step of the sequencer (R12, R30): the one transaction of its phase, or an internal phase. -/
theorem runPhase_cases {s t : State} (h : runPhase s = .next t) :
    (∃ i req, s.instrAt = some i ∧ s.request = some req ∧ Transacts i req s t) ∨ t = s.internal := by
  unfold runPhase at h
  split at h
  case h_8 =>
    split at h
    · rename_i i hi
      exact (exec_issued hi h).imp_left fun ⟨req, hq, ht⟩ => ⟨i, req, hi, hq, ht⟩
    · split at h <;> cases h
  all_goals
    rename_i hp
    cases h
    exact .inr (by simp only [State.internal, hp])

end Sys2Proof.Machine

/-! The step keeps the invariant: one lemma per kind of move between phases, then one per row, per internal phase
and per host operation. -/

namespace Sys2Proof.Machine

/-! ### The pre-state of an answered transaction -/

theorem instrAt_congr {s t : State} (h : t.key = s.key) : t.instrAt = s.instrAt := by
  simp only [State.key, Prod.mk.injEq] at h
  obtain ⟨hcfg, hph, -, -, -, -, hbank, -, hdialect, hsect, hppbop, -⟩ := h
  simp only [State.instrAt, State.selectRegs, State.selectBank, State.halfSelect, hcfg, hph, hbank, hdialect, hsect,
    hppbop]

theorem raiseEraseEvent_key (s : State) : s.raiseEraseEvent.key = s.key := by
  unfold State.raiseEraseEvent
  split <;> rfl

theorem issued_key (i : Instr) (s : State) : (issued i s).key = s.key := by
  unfold issued
  split
  · exact raiseEraseEvent_key s
  all_goals rfl

theorem answered_key (s : State) (req : BusReq) (ans : Answer) : (s.answered req ans).key = s.key := by
  simp [State.key]

theorem hold_key (s : State) (req : BusReq) : (s.hold req).key = s.key := by
  simp [State.key]

/-! ### Phases -/

theorem routine_of_bankPhase {p : Phase} (h : bankPhase p = true) : p.routine = 1 ∨ p.routine = 2 := by
  revert h; cases p <;> decide

theorem ppb_phase {p : Phase} (h : p.routine = 3) : p ≠ .idle ∧ p ≠ .prgCheck ∧ p ≠ .prgRetry := by
  revert h; cases p <;> decide

section
variable {s : State}

theorem State.Good.idle (h : s.Good) (hp : s.ph = .idle) :
    s.busy = false ∧ s.ppbop = .none ∧ s.outstanding = none := by
  refine ⟨?_, h.no_ppb_op (by rw [hp]; decide) (by rw [hp]; decide), ?_⟩
  · have := h.busy_iff
    simpa [hp] using this
  · cases ho : s.outstanding with
    | none => rfl
    | some req => simpa [State.request, State.instrAt, hp] using h.outstanding_eq req ho

theorem State.Good.idle_of_not_busy (h : s.Good) (hb : s.busy = false) : s.ph = .idle := by
  by_contra hp
  rw [h.busy_iff.2 hp] at hb
  cases hb

/-- With a bank in hand, PROGRAM runs (R163, R173). -/
theorem State.Good.programming_of_inHand (h : s.Good) (hin : s.bankInHand) : Programming s := by
  rcases hin with hb | ⟨h3, ho⟩
  · refine h.programming ?_ ?_ (h.program_op (routine_of_bankPhase hb)) <;> rintro hp <;> rw [hp] at hb <;> cases hb
  · exact h.programming (ppb_phase h3).1 (ppb_phase h3).2.1 ho

/-- Outside the checks and a retry, PROGRAM's own phases and the verify pass run no PPB operation (R25). -/
theorem State.Good.sequencing (h : s.Good) (hr : s.ph.routine = 1 ∨ s.ph.routine = 2) (hc : s.ph ≠ .prgCheck)
    (hre : s.ph ≠ .prgRetry) : Programming s ∧ s.ppbop = .none := by
  have hp : s.ph ≠ .idle ∧ s.ph.routine ≠ 3 := by revert hr; cases s.ph <;> decide
  exact ⟨h.programming hp.1 hc (h.program_op hr), h.no_ppb_op hp.2 hre⟩

/-! ### Moves between phases -/

theorem Running.goto (r : Running s) (p : Phase) : Running (s.goto p) :=
  ⟨r.image, r.busy, r.done, r.result, r.errors, r.configured⟩

theorem Programming.goto (pr : Programming s) (p : Phase) : Programming (s.goto p) :=
  ⟨pr.toRunning.goto p, pr.op, pr.legal, pr.fits, pr.bank_le⟩

theorem Programming.withBank (pr : Programming s) {b : BitVec 12}
    (hb : b.toNat ≤ 8 * ((s.bankcount.toNat + 7) / 8)) : Programming { s with bank := b } :=
  ⟨⟨pr.image, pr.busy, pr.done, pr.result, pr.errors, pr.configured⟩, pr.op, pr.legal, pr.fits, hb⟩

/-- To a phase with a bank in hand, which is a bank of the image in a good sector (R163, R164). -/
theorem Programming.goto_bankPhase (pr : Programming s) (ho : s.outstanding = none)
    (hin : s.imageDone = false ∧ s.sectorBad = false) {p : Phase} (hp : bankPhase p = true)
    (hrs : p = .prgRreset → unitOf s.cfg s.bank = 0) (hpp : p ≠ .prgRetry → s.ppbop = .none)
    (hhs : halfSelectPhase p = true → s.dialect = .scrambled) : (s.goto p).Good := by
  have hno : p.routine ≠ 3 ∧ p ≠ .idle ∧ ¬(p = .prgCheck ∨ p = .prgReset) ∧ ¬(p = .prgHead ∨ p = .vfyHead) := by
    revert hp; cases p <;> decide
  obtain ⟨h3, hid, hck, hhd⟩ := hno
  exact good_of_programming (pr.goto p) hid ho h3 hpp (absurd · hck) (fun _ => hin) hrs (absurd · hhd) hhs

/-- From a bank in hand to a phase that keeps it (R166 to R171, R176, R255 to R258). -/
theorem State.Good.goto_bankPhase (h : s.Good) (ho : s.outstanding = none) (hin : s.bankInHand) {p : Phase}
    (hp : bankPhase p = true) (hr : p ≠ .prgRreset) (hpp : p ≠ .prgRetry → s.ppbop = .none)
    (hhs : halfSelectPhase p = true → s.dialect = .scrambled) : (s.goto p).Good :=
  (h.programming_of_inHand hin).goto_bankPhase ho (h.in_hand hin) hp (absurd · hr) hpp hhs

/-- To a loop head (R163, R254): a bad sector is met only at its first bank (R165). -/
theorem Programming.goto_loopHead (pr : Programming s) (ho : s.outstanding = none) (hpp : s.ppbop = .none)
    {p : Phase} (hp : p = .prgHead ∨ p = .vfyHead) (hu : s.sectorBad = true → unitOf s.cfg s.bank = 0) :
    (s.goto p).Good := by
  rcases hp with rfl | rfl
  all_goals
    exact good_of_programming (pr.goto _) (by simp) ho (by rw [goto_ph]; decide) (fun _ => hpp) (by simp)
      (by simp [bankPhase]) (by simp) (fun _ => hu) (by simp [halfSelectPhase])

/-- From one phase of the PPB routine to another (R204 to R214, R232 to R240). -/
theorem State.Good.goto_ppb (h : s.Good) (ho : s.outstanding = none) (h3 : s.ph.routine = 3) {p : Phase}
    (hp : p.routine = 3) (hnr : notReadPhase p = true → s.ppbop ≠ .readOne)
    (hwo : p = .ppbSlo ∨ p = .ppbShi → s.ppbop = .writeOne) : (s.goto p).Good := by
  have r := h.running (ppb_phase h3).1
  refine good_of_ppb (r.goto p) hp ho (h.ppb_op h3) hnr hwo fun hop => ?_
  have hin : s.bankInHand := .inr ⟨h3, hop⟩
  obtain ⟨hd, hb⟩ := h.in_hand hin
  exact ⟨(h.programming_of_inHand hin).goto p, hd, hb, h.lock_sector h3 hop⟩

/-- From a phase of the poll, which read-one never enters (R209). -/
theorem State.Good.goto_poll (h : s.Good) (ho : s.outstanding = none) (hn : notReadPhase s.ph = true) {p : Phase}
    (hp : p.routine = 3) (hw : ¬(p = .ppbSlo ∨ p = .ppbShi)) : (s.goto p).Good :=
  h.goto_ppb ho (by revert hn; cases s.ph <;> decide) hp (fun _ => h.not_read hn) (absurd · hw)

/-- Every abort ends at rest (R280). -/
theorem State.Good.raise (h : s.Good) (ho : s.outstanding = none) (e : Result) : (s.raise e).Good :=
  good_of_idle h.image rfl rfl rfl ho

/-- A successful end leaves no PPB operation behind (R25). -/
theorem State.Good.finish (h : s.Good) (ho : s.outstanding = none) (hpp : s.ppbop = .none) : s.finish.Good :=
  good_of_idle h.image rfl rfl hpp ho

/-! ### Transactions -/

/-- A transaction other than `RST` is sent with a bank in hand or in the PPB routine. -/
theorem phase_of_request {i : Instr} {req : BusReq} (hi : s.instrAt = some i) (hq : s.request = some req)
    (hr : i ≠ .rst) : bankPhase s.ph = true ∨ s.ph.routine = 3 := by
  cases instrAt_issues hi with
  | rst => exact absurd rfl hr
  | r hp => rcases hp with hp | hp | hp | hp | hp <;> rw [hp] <;> decide
  | erase hp | pgm hp | crc hp => rw [hp]; decide
  | poll | verifyPass => simp [State.request, hi, Instr.cycle] at hq
  | cycle hc hin =>
    cases hp : s.ph
    case idle | prgCheck | prgReset | prgHead | vfyReset | vfyHead =>
      cases i <;> simp [Instr.cycleIn, State.cycleContext, Phase.selIndex, hp] at hin
    all_goals decide

theorem failDispatch_good {i : Instr} {req : BusReq} (h : s.Good) (ho : s.outstanding = none)
    (hi : s.instrAt = some i) (hq : s.request = some req) (hr : i ≠ .rst) : s.failDispatch.Good := by
  unfold State.failDispatch
  split
  case h_8 =>
    split
    · rename_i hop
      exact h.goto_bankPhase ho ((phase_of_request hi hq hr).imp_right (⟨·, hop⟩)) rfl (by simp) (by simp)
        (by simp [halfSelectPhase])
    · exact h.raise ho _
  all_goals exact h.raise ho _

theorem afterReset_good (h : s.Good) (ho : s.outstanding = none)
    (hp : s.ph = .prgReset ∨ s.ph = .prgRreset ∨ s.ph = .vfyReset) : s.afterReset.Good := by
  have hr : (s.ph.routine = 1 ∨ s.ph.routine = 2) ∧ s.ph ≠ .prgCheck ∧ s.ph ≠ .prgRetry := by
    rcases hp with hp | hp | hp <;> rw [hp] <;> decide
  obtain ⟨pr, hpp⟩ := h.sequencing hr.1 hr.2.1 hr.2.2
  rcases hp with hp | hp | hp <;> simp only [State.afterReset, hp]
  · refine pr.goto_loopHead ho hpp (.inl rfl) fun _ => ?_
    rw [h.check_bank (.inr hp), unitOf_eq_zero]
    rfl
  · exact pr.goto_loopHead ho hpp (.inl rfl) fun _ => h.retry_start hp
  · exact (pr.withBank (b := 0) (Nat.zero_le _)).goto_loopHead ho hpp (.inr rfl) fun _ => (unitOf_eq_zero _ _).2 rfl

theorem statusRead_good (h : s.Good) (ho : s.outstanding = none) (h3 : s.ph.routine = 3) (b : Byte) :
    (s.statusRead b).Good := by
  have hsv : State.Good { s with sv := b } := h.congr rfl (by simp [ho])
  have hrd : State.Good { s with rdata := b } := h.congr rfl (by simp [ho])
  unfold State.statusRead
  split
  · exact hrd.goto_ppb ho h3 rfl (by simp [notReadPhase]) (by simp)
  all_goals
    split
    · exact hsv.raise ho _
    · exact hsv.goto_ppb ho h3 rfl (by simp [notReadPhase]) (by simp)

theorem pollRead_good (h : s.Good) (ho : s.outstanding = none)
    (hp : s.ph = .pollRd1 ∨ s.ph = .pollRd2 ∨ s.ph = .pollRd3 ∨ s.ph = .pollRd4) (b : Byte) :
    (s.pollRead b).Good := by
  have hn : notReadPhase s.ph = true := by rcases hp with hp | hp | hp | hp <;> rw [hp] <;> rfl
  have hs1 : State.Good { s with s1 := b } := h.congr rfl (by simp [ho])
  have hs2 : State.Good { s with s2 := b } := h.congr rfl (by simp [ho])
  rcases hp with hp | hp | hp | hp <;> simp only [State.pollRead, hp]
  · exact hs1.goto_poll ho hn rfl (by simp)
  · exact hs2.goto_poll ho hn (p := pollDecision _ _ _) (by rw [pollDecision_eq]; split_ifs <;> rfl)
      (by rw [pollDecision_eq]; split_ifs <;> simp)
  · exact hs1.goto_poll ho hn rfl (by simp)
  · simp only [Config.followUpPairs_eq, Nat.le_refl, if_true]
    split
    · exact hs2.raise ho _
    · exact hs2.goto_poll ho hn rfl (by simp)

theorem vfyCompare_good (h : s.Good) (ho : s.outstanding = none) (hp : s.ph = .vfyCrc) (act : BitVec 16) :
    (s.vfyCompare act).Good := by
  have hu : State.Good { s with mmAct := act } := h.congr rfl (by simp [ho])
  unfold State.vfyCompare
  split
  · exact hu.goto_bankPhase ho (.inl (by simp [hp, bankPhase])) rfl (by simp)
      (fun _ => h.no_ppb_op (by rw [hp]; decide) (by rw [hp]; decide)) (by simp [halfSelectPhase])
  · exact good_of_idle h.image rfl rfl rfl ho

/-- From one phase with a bank in hand to another, no PPB operation running. -/
theorem State.Good.goto_bank (h : s.Good) (ho : s.outstanding = none)
    (hb : bankPhase s.ph = true ∧ s.ph ≠ .prgRetry) {p : Phase} (hp : bankPhase p = true) (hr : p ≠ .prgRreset)
    (hhs : halfSelectPhase p = true → s.dialect = .scrambled) : (s.goto p).Good := by
  refine h.goto_bankPhase ho (.inl hb.1) hp hr (fun _ => h.no_ppb_op ?_ hb.2) hhs
  rcases routine_of_bankPhase hb.1 with hq | hq <;> rw [hq] <;> decide

theorem nextSelect_good (h : s.Good) (ho : s.outstanding = none) {k : Fin 4} (hk : s.ph.selIndex = some k)
    (hne : k ≠ 3) : s.nextSelect.Good := by
  unfold State.nextSelect
  cases hp : s.ph <;> rw [hp] at hk <;> cases hk
  case prgSel3 | vfySel3 | ppbSel3 => exact absurd rfl hne
  case ppbSel0 | ppbSel1 | ppbSel2 =>
    exact h.goto_ppb ho (by rw [hp]; rfl) rfl (by simp [selSuccessor, notReadPhase]) (by simp [selSuccessor])
  all_goals
    exact h.goto_bank ho (by simp [hp, bankPhase]) rfl (by simp [selSuccessor])
      (by simp [selSuccessor, halfSelectPhase])

theorem afterErase_good (h : s.Good) (ho : s.outstanding = none) (hb : bankPhase s.ph = true ∧ s.ph ≠ .prgRetry) :
    (s.goto s.afterErase).Good := by
  unfold State.afterErase
  split
  · rename_i hd
    exact h.goto_bank ho hb rfl (by simp) fun _ => hd
  · exact h.goto_bank ho hb rfl (by simp) (by simp [halfSelectPhase])

theorem endSelect_good (h : s.Good) (ho : s.outstanding = none) (hk : s.ph.selIndex = some 3) :
    s.endSelect.Good := by
  cases hp : s.ph <;> rw [hp] at hk <;> cases hk <;> simp only [State.endSelect, hp]
  case prgSel3 =>
    have hb : bankPhase s.ph = true ∧ s.ph ≠ .prgRetry := by simp [hp, bankPhase]
    unfold State.afterPrgSel3
    split
    · exact h.goto_bank ho hb rfl (by simp) (by simp [halfSelectPhase])
    · exact afterErase_good h ho hb
  case vfySel3 =>
    have hb : bankPhase s.ph = true ∧ s.ph ≠ .prgRetry := by simp [hp, bankPhase]
    unfold State.afterVfySel3
    split
    · rename_i hd
      exact h.goto_bank ho hb rfl (by simp) fun _ => hd
    · exact h.goto_bank ho hb rfl (by simp) (by simp [halfSelectPhase])
  case ppbSel3 => exact h.goto_ppb ho (by rw [hp]; rfl) rfl (by simp [notReadPhase]) (by simp)

theorem nextHalf_good (h : s.Good) (ho : s.outstanding = none) (hp : s.ph = .prgHs1 ∨ s.ph = .vfyHs1)
    (hd : s.dialect = .scrambled) : s.nextHalf.Good := by
  rcases hp with hp | hp <;> simp only [State.nextHalf, hp]
  all_goals exact h.goto_bank ho (by simp [hp, bankPhase]) rfl (by simp) fun _ => hd

theorem endHalf_good (h : s.Good) (ho : s.outstanding = none) (hp : s.ph = .prgHs2 ∨ s.ph = .vfyHs2) :
    s.endHalf.Good := by
  rcases hp with hp | hp <;> simp only [State.endHalf, hp]
  all_goals exact h.goto_bank ho (by simp [hp, bankPhase]) rfl (by simp) (by simp [halfSelectPhase])

/-- A bus command cycle that is answered `ok` (R97). -/
theorem afterOk_cycle_good (h : s.Good) (ho : s.outstanding = none) {i : Instr} {p : Addr × Byte}
    (hc : i.cycle = some p) (hin : i.cycleIn s.cycleContext = true) : (afterOk i 0 s).Good := by
  cases i <;> cases hc <;> replace hin := of_decide_eq_true hin <;> simp only [State.cycleContext] at hin
  case sel0 | sel1 => exact nextSelect_good h ho hin.1 (by decide)
  case sel2 => exact nextSelect_good h ho hin (by decide)
  case sel3 => exact endSelect_good h ho hin.1
  case hs1 => exact nextHalf_good h ho hin.1 hin.2
  case hs2 => exact endHalf_good h ho hin.1
  case ppbe1 | ppbw1 | ppbr1 | ppbe2 | ppbw2 =>
    exact h.goto_ppb ho (by rw [hin.1]; rfl) rfl (by simp [notReadPhase, hin.2]) (by simp [hin.2])
  case seclo =>
    exact h.goto_ppb ho (by rw [hin]; rfl) rfl (by simp [notReadPhase]) fun _ => h.write_only (.inl hin)
  case sechi =>
    exact h.goto_ppb ho (by rw [hin]; rfl) rfl (by simp [h.write_only (.inr hin)]) (by simp)
  all_goals exact h.goto_ppb ho (by rw [hin]; rfl) rfl (by simp [notReadPhase]) (by simp)

theorem afterOk_good (h : s.Good) (ho : s.outstanding = none) {i : Instr} (hi : s.instrAt = some i)
    (rd : BitVec 16) : (afterOk i rd s).Good := by
  cases instrAt_issues hi with
  | rst hp => exact afterReset_good h ho hp
  | r hp =>
    rcases hp with hp | hp | hp | hp | hp <;> simp only [afterOk, State.afterRead, hp]
    case inr.inr.inr.inr => exact statusRead_good h ho (by rw [hp]; rfl) _
    all_goals exact pollRead_good h ho (by simp [hp]) _
  | erase hp => exact afterErase_good h ho (by simp [hp, bankPhase])
  | pgm hp => exact h.goto_bank ho (by simp [hp, bankPhase]) rfl (by simp) (by simp [halfSelectPhase])
  | crc hp => exact vfyCompare_good h ho hp rd
  | poll => exact h
  | verifyPass => exact h
  | cycle hc hin => rw [afterOk_cycle hc]; exact afterOk_cycle_good h ho hc hin

theorem Transacts.good {i : Instr} {req : BusReq} {t : State} (h : s.Good) (hi : s.instrAt = some i)
    (hq : s.request = some req) (ht : Transacts i req s t) : t.Good := by
  have hk := issued_key i s
  have ha (ans : Answer) : ((issued i s).answered req ans).key = s.key := (answered_key _ _ _).trans hk
  have hg (ans : Answer) : ((issued i s).answered req ans).Good := h.congr (ha ans) (by simp)
  cases ht with
  | held => exact h.congr ((hold_key _ _).trans hk) (by simp [hq])
  | failed hr =>
    exact failDispatch_good (hg _) rfl ((instrAt_congr (ha _)).trans hi) ((request_congr (ha _)).trans hq) hr
  | done ans rd => exact afterOk_good (hg ans) rfl ((instrAt_congr (ha ans)).trans hi) rd

/-! ### Internal phases -/

theorem Programming.bankcount_le (p : Programming s) : s.bankcount.toNat ≤ 2048 := by
  have := p.legal
  rw [← Bool.not_eq_true, bankcountIllegal_iff] at this
  omega

theorem prgCheck_good (h : s.Good) (ho : s.outstanding = none) (hp : s.ph = .prgCheck) : s.prgCheck.Good := by
  have r := h.running (by simp [hp])
  have hbank : s.bank = 0 := h.check_bank (.inl hp)
  unfold State.prgCheck
  split
  · exact h.raise ho _
  · split
    · exact h.raise ho _
    · rename_i hl hf
      have pr : Programming (s.goto .prgReset) :=
        ⟨r.goto _, h.program_op (.inl (by rw [hp]; rfl)), Bool.eq_false_of_not_eq_true hl,
          Bool.eq_false_of_not_eq_true hf, by simp [hbank]⟩
      exact good_of_programming pr (by simp) ho (by rw [goto_ph]; decide)
        (fun _ => h.no_ppb_op (by rw [hp]; decide) (by simp [hp])) (fun _ => hbank) (by simp [bankPhase]) (by simp)
        (by simp) (by simp [halfSelectPhase])

/-- What holds at the head of PROGRAM's loop and of the verify pass's (R163, R254). -/
theorem State.Good.loopHead (h : s.Good) (hp : s.ph = .prgHead ∨ s.ph = .vfyHead) :
    Programming s ∧ s.ppbop = .none := by
  rcases hp with hp | hp <;> exact h.sequencing (by rw [hp]; decide) (by simp [hp]) (by simp [hp])

/-- A bad sector is passed over whole (R165). -/
theorem skip_sector_good (h : s.Good) (ho : s.outstanding = none) (hp : s.ph = .prgHead ∨ s.ph = .vfyHead)
    (hd : s.imageDone = false) (hb : s.sectorBad = true) :
    State.Good { s with bank := s.bank + BitVec.ofNat 12 s.cfg.banksPerSector } := by
  obtain ⟨pr, hpp⟩ := h.loopHead hp
  have hu := h.skip_aligned hp hb
  have hle := pr.bankcount_le
  rw [← Bool.not_eq_true, imageDone_iff] at hd
  rw [unitOf_eq_zero] at hu
  have hbank : (s.bank + BitVec.ofNat 12 s.cfg.banksPerSector).toNat = s.bank.toNat + 8 := by
    rw [Config.banksPerSector_eq, BitVec.toNat_add, BitVec.toNat_ofNat]
    omega
  refine (pr.withBank (b := s.bank + BitVec.ofNat 12 s.cfg.banksPerSector) (by omega)).goto_loopHead ho hpp hp
    fun _ => ?_
  rw [unitOf_eq_zero]
  simp only [hbank]
  omega

/-- A bank of the image in a good sector is taken in hand. -/
theorem take_bank_good (h : s.Good) (ho : s.outstanding = none) (hp : s.ph = .prgHead ∨ s.ph = .vfyHead)
    (hd : s.imageDone = false) (hb : s.sectorBad = false) (e : Event) {p : Phase} (hs : p = .prgSel0 ∨ p = .vfySel0) :
    ((s.raiseEvent e).goto p).Good := by
  obtain ⟨pr, hpp⟩ := h.loopHead hp
  have pr' : Programming (s.raiseEvent e) :=
    ⟨⟨pr.image, pr.busy, pr.done, pr.result, pr.errors, pr.configured⟩, pr.op, pr.legal, pr.fits, pr.bank_le⟩
  rcases hs with rfl | rfl
  all_goals exact pr'.goto_bankPhase ho ⟨hd, hb⟩ rfl (by simp) (fun _ => hpp) (by simp [halfSelectPhase])

theorem prgHead_good (h : s.Good) (ho : s.outstanding = none) (hp : s.ph = .prgHead) : s.prgHead.Good := by
  obtain ⟨pr, hpp⟩ := h.loopHead (.inl hp)
  unfold State.prgHead
  split
  · split
    · exact good_of_programming (pr.goto _) (by simp) ho (by rw [goto_ph]; decide) (fun _ => hpp) (by simp)
        (by simp [bankPhase]) (by simp) (by simp) (by simp [halfSelectPhase])
    · exact h.finish ho hpp
  · rename_i hd
    split
    · exact skip_sector_good h ho (.inl hp) (Bool.eq_false_of_not_eq_true hd) ‹_›
    · exact take_bank_good h ho (.inl hp) (Bool.eq_false_of_not_eq_true hd) (Bool.eq_false_of_not_eq_true ‹_›) _
        (.inl rfl)

theorem vfyHead_good (h : s.Good) (ho : s.outstanding = none) (hp : s.ph = .vfyHead) : s.vfyHead.Good := by
  unfold State.vfyHead
  split
  · exact good_of_idle h.image rfl rfl (h.loopHead (.inr hp)).2 ho
  · rename_i hd
    split
    · exact skip_sector_good h ho (.inr hp) (Bool.eq_false_of_not_eq_true hd) ‹_›
    · exact take_bank_good h ho (.inr hp) (Bool.eq_false_of_not_eq_true hd) (Bool.eq_false_of_not_eq_true ‹_›) _
        (.inr rfl)

theorem prgLock_good (h : s.Good) (ho : s.outstanding = none) (hp : s.ph = .prgLock) : s.prgLock.Good := by
  have hin : s.bankInHand := .inl (by rw [hp]; rfl)
  have pr := h.programming_of_inHand hin
  obtain ⟨hd, hb⟩ := h.in_hand hin
  unfold State.prgLock
  split
  · have pr' : Programming (({ s with sect := sectorOf s.cfg s.bank }).enterPpb .writeOne) :=
      ⟨⟨pr.image, pr.busy, pr.done, pr.result, pr.errors, pr.configured⟩, pr.op, pr.legal, pr.fits, pr.bank_le⟩
    exact good_of_ppb pr'.toRunning (by rw [enterPpb_ph]; rfl) ho (by simp [State.ppbOpDue, pr.op]) (by simp) (by simp)
      fun _ => ⟨pr', hd, hb, rfl⟩
  · exact h.goto_bank ho (by simp [hp, bankPhase]) rfl (by simp) (by simp [halfSelectPhase])

/-- The bank after the one in hand (R175, R259): at most the image's end, in the same sector or at the next one's
start. -/
theorem next_bank_good (h : s.Good) (ho : s.outstanding = none) (hp : s.ph = .prgNext ∨ s.ph = .vfyNext) {p : Phase}
    (hh : p = .prgHead ∨ p = .vfyHead) : State.Good { s with bank := s.bank + 1, ph := p } := by
  have hb : bankPhase s.ph = true ∧ s.ph ≠ .prgCheck ∧ s.ph ≠ .prgRetry := by
    rcases hp with hp | hp <;> rw [hp] <;> decide
  obtain ⟨pr, hpp⟩ := h.sequencing (routine_of_bankPhase hb.1) hb.2.1 hb.2.2
  obtain ⟨hd, hbad⟩ := h.in_hand (.inl hb.1)
  have hle := pr.bankcount_le
  rw [← Bool.not_eq_true, imageDone_iff] at hd
  have hbank : (s.bank + 1).toNat = s.bank.toNat + 1 := by
    rw [BitVec.toNat_add, show (1 : BitVec 12).toNat = 1 from rfl]
    omega
  exact (pr.withBank (b := s.bank + 1) (by omega)).goto_loopHead ho hpp hh fun hn =>
    bad_sector_next hbad (by omega) (by rwa [sectorBad_eq] at hn)

theorem retry_good (h : s.Good) (ho : s.outstanding = none) (hp : s.ph = .prgRetry) : s.retry.Good := by
  have hin : s.bankInHand := .inl (by rw [hp]; rfl)
  have pr := h.programming_of_inHand hin
  obtain ⟨hd, hb⟩ := h.in_hand hin
  unfold State.retry
  split
  · exact good_of_idle h.image rfl rfl rfl ho
  · rename_i hne
    have herr : (s.errcnt + 1).toNat < s.cfg.maxErrors := by
      have hlt := pr.errors
      have hadd : (s.errcnt + 1).toNat = (s.errcnt.toNat + 1) % 4 := BitVec.toNat_add ..
      rw [Config.maxErrors_eq] at hlt hne ⊢
      omega
    have hle := sectorStart_le s.cfg s.bank
    have pr' : Programming { s with errcnt := s.errcnt + 1, ppbop := .none, bank := sectorStart s.cfg s.bank } :=
      ⟨⟨pr.image, pr.busy, pr.done, pr.result, herr, pr.configured⟩, pr.op, pr.legal, pr.fits, hle.trans pr.bank_le⟩
    refine pr'.goto_bankPhase ho ⟨?_, ?_⟩ rfl (fun _ => sectorStart_unit _ _) (fun _ => rfl) (by simp [halfSelectPhase])
    · rw [← Bool.not_eq_true, imageDone_iff] at hd ⊢
      exact fun hc => hd (hc.trans hle)
    · rw [sectorBad_eq] at hb ⊢
      rwa [sectorStart_sector]

theorem ppbRet_good (h : s.Good) (ho : s.outstanding = none) (hp : s.ph = .ppbRet) : s.ppbRet.Good := by
  unfold State.ppbRet
  split
  · rename_i hop
    have hin : s.bankInHand := .inr ⟨by rw [hp]; rfl, hop⟩
    have pr := h.programming_of_inHand hin
    have pr' : Programming { s with ppbop := .none } :=
      ⟨⟨pr.image, pr.busy, pr.done, pr.result, pr.errors, pr.configured⟩, pr.op, pr.legal, pr.fits, pr.bank_le⟩
    exact pr'.goto_bankPhase ho (h.in_hand hin) rfl (by simp) (fun _ => rfl) (by simp [halfSelectPhase])
  · exact good_of_idle h.image rfl rfl rfl ho

/-- A phase that sends a request is no internal phase. -/
theorem internal_of_request {req : BusReq} (hq : s.request = some req) : s.internal = s := by
  unfold State.internal
  split
  case h_11 => rfl
  all_goals
    rename_i hp
    simp [State.request, State.instrAt, hp, Instr.cycle] at hq

theorem internal_good (h : s.Good) : s.internal.Good := by
  cases hq : s.request with
  | some req => rwa [internal_of_request hq]
  | none =>
    have ho : s.outstanding = none := by
      cases ho : s.outstanding with
      | none => rfl
      | some q => rw [h.outstanding_eq q ho] at hq; cases hq
    unfold State.internal
    split
    next hp => exact prgCheck_good h ho hp
    next hp => exact prgHead_good h ho hp
    next hp => exact prgLock_good h ho hp
    next hp => exact next_bank_good h ho (.inl hp) (.inl rfl)
    next hp => exact retry_good h ho hp
    next hp => exact ppbRet_good h ho hp
    next hp => exact vfyHead_good h ho hp
    next hp => exact next_bank_good h ho (.inr hp) (.inr rfl)
    next hp => exact h.goto_poll ho (by rw [hp]; rfl) rfl (by simp)
    next hp => exact h.goto_poll ho (by rw [hp]; rfl) rfl (by simp)
    next => exact h

theorem runPhase_good {t : State} (h : s.Good) (ht : runPhase s = .next t) : t.Good := by
  rcases runPhase_cases ht with ⟨i, req, hi, hq, hs⟩ | rfl
  · exact hs.good h hi hq
  · exact internal_good h

end

end Sys2Proof.Machine

/-! The host's operations: what a step that takes one does, command acceptance, the register file. -/

namespace Sys2Proof.Machine

/-! ### A step, by what stands in the inbox -/

theorem step_runPhase {s : State} (h : s.inbox = []) : step s = runPhase s := by
  simp only [step, advance, h]

theorem step_hostStep {s : State} {op : HostOp} {rest : List HostOp} (h : s.inbox = op :: rest) :
    step s = hostStep op { s with inbox := rest } := by
  simp only [step, advance, h]

/-- A write to `CMD` runs the command word (R43, R91). -/
theorem hostStep_command (s : State) (v : BitVec 256) :
    hostStep (.write 0 v) s = exec (decodeCommand (v.setWidth 16)) s := rfl

theorem hostStep_write {n : Nat} (hn : n ≠ 0) (s : State) (v : BitVec 256) :
    hostStep (.write n v) s = .next (s.hostWrite n v) := by
  obtain ⟨m, rfl⟩ := Nat.exists_eq_succ_of_ne_zero hn
  rfl

/-! ### Command words -/

/-- Every 16-bit word is a command word (R90, R92, R94). -/
theorem decodeCommand_isCommand (word : BitVec 16) : isCommand (decodeCommand word) = true := by
  unfold decodeCommand
  dsimp only
  split_ifs
  · rfl
  · split <;> rfl

variable {s : State}

/-- R49: every command word is ignored while `BUSY` = 1. -/
theorem exec_command_busy {i : Instr} (hb : s.busy = true) (hc : isCommand i = true) : exec i s = .next s := by
  have haccept (op : Op) (d : Dialect) (v : Bool) (sec : BitVec 8) (first : State → State) :
      s.accept op d v sec first = .next s := by simp only [State.accept, hb, if_true]
  have hreject : s.rejectCommand = s := by simp only [State.rejectCommand, hb, if_true]
  cases i <;> simp only [isCommand, Bool.false_eq_true] at hc
  case nop => rfl
  case ppbEraseAll | ppbWrite | ppbRead | program => exact haccept ..
  case illegal5 | illegal6 | illegal7 | illegalRsv => exact congrArg Host.Outcome.next hreject

/-- R91, R40: acceptance enters the first phase from the initial values. -/
theorem accept_idle (hb : s.busy = false) {d : Dialect} (hd : s.dialectConfigured d = true) (op : Op) (v : Bool)
    (sec : BitVec 8) (first : State → State) :
    s.accept op d v sec first = .next (first (s.initCommand op d v sec)) := by
  simp only [State.accept, hb, hd, Bool.false_eq_true, if_false, if_true]

/-! ### Host writes -/

/-- R49: a host write is ignored while `BUSY` = 1, whatever the register. -/
theorem hostStep_write_busy (hb : s.busy = true) (n : Nat) (v : BitVec 256) : hostStep (.write n v) s = .next s := by
  by_cases hn : n = 0
  · rw [hn, hostStep_command]
    exact exec_command_busy hb (decodeCommand_isCommand _)
  · rw [hostStep_write hn]
    simp only [State.hostWrite, hb, if_true]

theorem hostStep_writeImage_busy (hb : s.busy = true) (k : BitVec 25) (b : Byte) :
    hostStep (.writeImage k b) s = .next s := by
  simp only [hostStep, State.hostWriteImage, hb, if_true]

/-- R42, R45 to R47: the three registers the host can write while `BUSY` = 0. -/
theorem hostWrite_idle (hb : s.busy = false) (n : Nat) (v : BitVec 256) :
    s.hostWrite n v = { s with
      bankcount := if n = 2 then v.setWidth 12 else s.bankcount
      capacity := if n = 3 then v.setWidth 32 else s.capacity
      badmap := if n = 10 then v else s.badmap } := by
  unfold State.hostWrite
  rw [if_neg (Bool.eq_false_iff.1 hb)]
  split
  case h_4 h2 h3 h10 => rw [if_neg h2, if_neg h3, if_neg h10]
  all_goals rfl

/-! ### The invariant over host operations -/

theorem initCommand_running (hw : Memory.wf s.img) {d : Dialect} (hd : s.dialectConfigured d = true) (op : Op)
    (v : Bool) (sec : BitVec 8) : Running (s.initCommand op d v sec) :=
  ⟨hw, rfl, rfl, rfl, by simp, hd⟩

/-- A PPB command enters the PPB routine (R203). -/
theorem enterPpb_command_good (hw : Memory.wf s.img) (ho : s.outstanding = none) {d : Dialect}
    (hd : s.dialectConfigured d = true) {op : Op} (hop : op ≠ .none ∧ op ≠ .program) (v : Bool) (sec : BitVec 8) :
    ((s.initCommand op d v sec).enterPpb op.ppbOp).Good := by
  have r := initCommand_running hw hd op v sec
  refine good_of_ppb ⟨r.image, r.busy, r.done, r.result, r.errors, r.configured⟩ (by rw [enterPpb_ph]; rfl) ho
    ⟨hop.1, ?_⟩ (by simp [notReadPhase]) (by simp) fun h => absurd h hop.2
  simp [State.ppbOpDue, hop.2]

/-- PROGRAM enters its checks, where nothing is known of `BANKCOUNT` and `CAPACITY` (R159). -/
theorem program_command_good (hw : Memory.wf s.img) (ho : s.outstanding = none) {d : Dialect}
    (hd : s.dialectConfigured d = true) (v : Bool) (sec : BitVec 8) :
    ((s.initCommand .program d v sec).goto .prgCheck).Good := by
  have r := (initCommand_running hw hd .program v sec).goto .prgCheck
  constructor
  case image => exact hw
  case errors => exact fun _ => r.errors
  case configured => exact fun _ => r.configured
  all_goals
    simp [ho, State.bankInHand, bankPhase, Phase.routine, Phase.code, notReadPhase, halfSelectPhase]

theorem accept_good (h : s.Good) {op : Op} {d : Dialect} {v : Bool} {sec : BitVec 8} {first : State → State}
    {t : State} (ht : s.accept op d v sec first = .next t)
    (hf : s.outstanding = none → s.dialectConfigured d = true → (first (s.initCommand op d v sec)).Good) : t.Good := by
  unfold State.accept at ht
  split at ht
  · cases ht; exact h
  · rename_i hb
    split at ht
    · rename_i hd
      cases ht
      exact hf (h.idle (h.idle_of_not_busy (Bool.eq_false_of_not_eq_true hb))).2.2 hd
    · cases ht

/-- At rest the other registers may change (R49, R94). -/
theorem State.Good.edit_idle (h : s.Good) (hb : s.busy = false) {t : State} (hw : Memory.wf t.img)
    (ht : t.ph = s.ph ∧ t.busy = s.busy ∧ t.ppbop = s.ppbop ∧ t.outstanding = s.outstanding) : t.Good := by
  have hp := h.idle_of_not_busy hb
  obtain ⟨-, hpp, ho⟩ := h.idle hp
  obtain ⟨tp, tb, tpp, to'⟩ := ht
  exact good_of_idle hw (tp.trans hp) (tb.trans hb) (tpp.trans hpp) (to'.trans ho)

theorem rejectCommand_good (h : s.Good) : s.rejectCommand.Good := by
  unfold State.rejectCommand
  split
  · exact h
  · rename_i hb
    exact h.edit_idle (Bool.eq_false_of_not_eq_true hb) h.image ⟨rfl, rfl, rfl, rfl⟩

theorem exec_command_good (h : s.Good) {i : Instr} (hc : isCommand i = true) {t : State}
    (ht : exec i s = .next t) : t.Good := by
  cases i <;> simp only [isCommand, Bool.false_eq_true] at hc
  case nop => cases ht; exact h
  case ppbEraseAll d v sec =>
    exact accept_good h ht fun ho hd => enterPpb_command_good (op := .eraseAll) h.image ho hd (by decide) v 0
  case ppbWrite d v sec =>
    exact accept_good h ht fun ho hd => enterPpb_command_good (op := .write) h.image ho hd (by decide) v sec
  case ppbRead d v sec =>
    exact accept_good h ht fun ho hd => enterPpb_command_good (op := .read) h.image ho hd (by decide) v sec
  case program d v sec => exact accept_good h ht fun ho hd => program_command_good h.image ho hd v sec
  case illegal5 | illegal6 | illegal7 | illegalRsv => cases ht; exact rejectCommand_good h

theorem hostWrite_good (h : s.Good) (n : Nat) (v : BitVec 256) : (s.hostWrite n v).Good := by
  cases hb : s.busy with
  | true => simpa only [State.hostWrite, hb, if_true] using h
  | false =>
    rw [hostWrite_idle hb]
    exact h.edit_idle hb h.image ⟨rfl, rfl, rfl, rfl⟩

theorem hostWriteImage_good (h : s.Good) (k : BitVec 25) (b : Byte) : (s.hostWriteImage k b).Good := by
  unfold State.hostWriteImage
  split
  · exact h
  · rename_i hb
    exact h.edit_idle (Bool.eq_false_of_not_eq_true hb) (Memory.write_wf b h.image k.isLt) ⟨rfl, rfl, rfl, rfl⟩

theorem Memory.wf_nil : Memory.wf [] :=
  ⟨List.Pairwise.nil, fun _ hc => absurd hc List.not_mem_nil⟩

theorem hardwareReset_good (s : State) : s.hardwareReset.Good :=
  good_of_idle Memory.wf_nil rfl rfl rfl rfl

theorem hostStep_good (h : s.Good) (op : HostOp) {t : State} (ht : hostStep op s = .next t) : t.Good := by
  cases op with
  | write n v =>
    by_cases hn : n = 0
    · rw [hn, hostStep_command] at ht
      exact exec_command_good h (decodeCommand_isCommand _) ht
    · rw [hostStep_write hn] at ht
      cases ht
      exact hostWrite_good h n v
  | read n => cases ht; exact h.congr rfl h.outstanding_eq
  | writeImage k b => cases ht; exact hostWriteImage_good h k b
  | hardwareReset => cases ht; exact hardwareReset_good s
  | pass => exact runPhase_good h ht

end Sys2Proof.Machine

/-! What no step of a running command changes (R22, R23, R49, R323), operation by operation. -/

namespace Sys2Proof.Machine

/-- The fields that are constant while a command runs, and the error counter. -/
def State.constants (s : State) :=
  (s.cfg, s.op, s.dialect, s.verify, s.bankcount, s.capacity, s.badmap, s.img, s.errcnt)

section
variable (s : State)

/-! ### Transactions -/

theorem hold_constants (q : BusReq) : (s.hold q).constants = s.constants := by simp [State.constants]

theorem answered_constants (q : BusReq) (a : Answer) : (s.answered q a).constants = s.constants := by
  simp [State.constants]

theorem failDispatch_constants : s.failDispatch.constants = s.constants := by
  unfold State.failDispatch
  split
  case h_8 => split <;> rfl
  all_goals rfl

theorem issued_constants (i : Instr) : (issued i s).constants = s.constants := by
  unfold issued
  split
  · unfold State.raiseEraseEvent
    split <;> rfl
  all_goals rfl

theorem statusRead_constants (b : Byte) : (s.statusRead b).constants = s.constants := by
  unfold State.statusRead
  split
  · rfl
  all_goals split <;> rfl

theorem pollRead_constants (b : Byte) : (s.pollRead b).constants = s.constants := by
  unfold State.pollRead
  split
  case h_4 =>
    split
    · split <;> rfl
    · rfl
  all_goals rfl

theorem vfyCompare_constants (act : BitVec 16) : (s.vfyCompare act).constants = s.constants := by
  unfold State.vfyCompare
  split <;> rfl

theorem afterOk_constants (i : Instr) (rd : BitVec 16) : (afterOk i rd s).constants = s.constants := by
  cases i
  case rst => simp only [afterOk, State.afterReset]; split <;> rfl
  case r =>
    simp only [afterOk, State.afterRead]
    split
    · exact statusRead_constants s _
    · exact pollRead_constants s _
  case crc => exact vfyCompare_constants s rd
  case sel3 => simp only [afterOk, State.endSelect]; split <;> rfl
  case hs1 => simp only [afterOk, State.nextHalf]; split <;> rfl
  case hs2 => simp only [afterOk, State.endHalf]; split <;> rfl
  all_goals rfl

end

variable {s t : State}

theorem Transacts.constants {i : Instr} {req : BusReq} (h : Transacts i req s t) : t.constants = s.constants := by
  cases h with
  | held => rw [hold_constants, issued_constants]
  | failed => rw [failDispatch_constants, answered_constants, issued_constants]
  | done ans rd => rw [afterOk_constants, answered_constants, issued_constants]

/-! ### Internal phases -/

/-- `PRG_RETRY` counts the error, also where it is fatal (R176, R177). -/
theorem retry_constants (s : State) : s.retry.constants = { s with errcnt := s.errcnt + 1 }.constants := by
  unfold State.retry
  split <;> rfl

theorem internal_constants (hp : s.ph ≠ .prgRetry) : s.internal.constants = s.constants := by
  unfold State.internal
  split
  case h_1 =>
    unfold State.prgCheck
    split
    · rfl
    · split <;> rfl
  case h_2 =>
    unfold State.prgHead
    split
    · split <;> rfl
    · split <;> rfl
  case h_3 => unfold State.prgLock; split <;> rfl
  case h_5 => contradiction
  case h_6 => unfold State.ppbRet; split <;> rfl
  case h_7 =>
    unfold State.vfyHead
    split
    · rfl
    · split <;> rfl
  all_goals rfl

/-- `t` has the constants of `s`; the error counter is one higher after `PRG_RETRY` (R176). -/
def KeepsConstants (s t : State) : Prop :=
  t.constants = s.constants ∨ s.ph = .prgRetry ∧ t.constants = { s with errcnt := s.errcnt + 1 }.constants

theorem runPhase_constants (h : runPhase s = .next t) : KeepsConstants s t := by
  rcases runPhase_cases h with ⟨i, req, -, -, ht⟩ | rfl
  · exact .inl ht.constants
  · by_cases hp : s.ph = .prgRetry
    · refine .inr ⟨hp, ?_⟩
      simp only [State.internal, hp]
      exact retry_constants s
    · exact .inl (internal_constants hp)

/-- A host operation other than a hardware reset, while a command runs (R49). -/
theorem hostStep_busy_constants (hb : s.busy = true) {op : HostOp} (hop : op ≠ .hardwareReset)
    (h : hostStep op s = .next t) : KeepsConstants s t := by
  cases op with
  | write n v => rw [hostStep_write_busy hb] at h; cases h; exact .inl rfl
  | read n => cases h; exact .inl rfl
  | writeImage k b => rw [hostStep_writeImage_busy hb] at h; cases h; exact .inl rfl
  | hardwareReset => exact absurd rfl hop
  | pass => exact runPhase_constants h

/-! ### The status word and the program window -/

/-- The bits of `STATUS`, one by one (R44). -/
theorem status_getLsbD (s : State) (i : Nat) :
    s.status.getLsbD i =
      if i = 0 then s.busy else if i = 1 then s.done
      else if i < 5 then s.result.code.getLsbD (i - 2)
      else if i < 7 then s.errcnt.getLsbD (i - 5) else false := by
  show (0#9 ++ s.errcnt ++ s.result.code ++ BitVec.ofBool s.done ++ BitVec.ofBool s.busy
    : BitVec (9 + 2 + 3 + 1 + 1)).getLsbD i = _
  simp only [BitVec.getLsbD_append, BitVec.getLsbD_ofBool, BitVec.getLsbD_zero, Nat.sub_sub]
  split_ifs <;> simp_all <;> omega

/-- R62: the window's base fits the 16-bit bus space. -/
theorem prgAddr_toNat (c : Config) : (prgAddr c).toNat = c.prg.val := by
  have := c.prg.isLt
  rw [prgAddr, BitVec.toNat_ofNat]
  omega

end Sys2Proof.Machine

/-! The statements of the family on the state: each settled from the lemmas above. -/

section
open Sys2Proof Sys2Proof.Machine

/-- Settles O49: a step is the sequencer's or one host operation, and each keeps the invariant. -/
theorem stepKeepsGood : Obligations.StepKeepsGood := by
  unfold Obligations.StepKeepsGood
  intro s t h ht
  cases hi : s.inbox with
  | nil =>
    rw [step_runPhase hi] at ht
    exact runPhase_good h ht
  | cons op rest =>
    rw [step_hostStep hi] at ht
    exact hostStep_good (s := { s with inbox := rest }) (h.congr rfl h.outstanding_eq) op ht

/-- Settles O53: every operation of the sequencer keeps the constants, `PRG_RETRY` but for the count (R176), and a
host operation is ignored (R49). -/
theorem runningCommandConstants : Obligations.RunningCommandConstants := by
  unfold Obligations.RunningCommandConstants
  intro s t hb hr ht
  have hc : KeepsConstants s t := by
    cases hi : s.inbox with
    | nil =>
      rw [step_runPhase hi] at ht
      exact runPhase_constants ht
    | cons op rest =>
      rw [step_hostStep hi] at ht
      have hop : op ≠ .hardwareReset := by rintro rfl; simp [hi] at hr
      exact hostStep_busy_constants (s := { s with inbox := rest }) hb hop ht
  simp only [KeepsConstants, State.constants, Prod.mk.injEq] at hc
  rcases hc with ⟨hcfg, hop, hd, hv, hcount, hcap, hbad, himg, herr⟩ |
    ⟨hp, hcfg, hop, hd, hv, hcount, hcap, hbad, himg, herr⟩
  · exact ⟨hcfg, hop, hd, hv, hcount, hcap, hbad, himg, .inl herr⟩
  · exact ⟨hcfg, hop, hd, hv, hcount, hcap, hbad, himg, .inr ⟨hp, herr⟩⟩

/-- Settles O2: acceptance is the initial values and the first phase (R40, R91, R203); a busy block ignores the word
(R49). -/
theorem commandAcceptance : Obligations.CommandAcceptance := by
  unfold Obligations.CommandAcceptance
  refine ⟨fun s d v sec hb hd => ?_, fun s i hb hc => exec_command_busy hb hc⟩
  exact ⟨accept_idle hb hd .eraseAll v 0 _, accept_idle hb hd .write v sec _, accept_idle hb hd .read v sec _,
    accept_idle hb hd .program v sec _⟩

/-- Settles O5: each host operation while `BUSY` = 1, and a read in every state. -/
theorem busyIgnoresHostWrites : Obligations.BusyIgnoresHostWrites := by
  unfold Obligations.BusyIgnoresHostWrites
  refine ⟨fun s n v rest hb hi => ?_, fun s k b rest hb hi => ?_, fun s n rest hi => ?_⟩
  · exact (step_hostStep hi).trans (hostStep_write_busy (s := { s with inbox := rest }) hb n v)
  · exact (step_hostStep hi).trans (hostStep_writeImage_busy (s := { s with inbox := rest }) hb k b)
  · exact step_hostStep hi

/-- Settles O6: the register numbers and the phase codes are those of the tables, and a write while `BUSY` = 0 is
`hostWrite_idle`. -/
theorem hostRegisterFile : Obligations.HostRegisterFile := by
  unfold Obligations.HostRegisterFile
  refine ⟨fun s => ⟨rfl, rfl, rfl, rfl, rfl, rfl, rfl, rfl, rfl, rfl, rfl, fun n hn => ?_⟩, rfl, rfl, rfl, rfl, rfl,
    rfl, fun s n v rest hb hi hn => ?_⟩
  · unfold State.hostRead
    split
    case h_11 => rfl
    all_goals omega
  · rw [step_hostStep hi, hostStep_write hn]
    exact congrArg Host.Outcome.next (hostWrite_idle (s := { s with inbox := rest }) hb n v)

/-- Settles O7: the fields are read off the bits of `status_getLsbD`; register 1 takes no write. -/
theorem statusWord : Obligations.StatusWord := by
  unfold Obligations.StatusWord
  refine ⟨fun s => ⟨status_getLsbD s 0, status_getLsbD s 1, ?_, ?_, ?_⟩, rfl, fun s v rest hi => ?_⟩
  · ext i hi
    rw [BitVec.getElem_extractLsb', status_getLsbD, if_neg (by omega), if_neg (by omega), if_pos (by omega),
      Nat.add_sub_cancel_left, BitVec.getLsbD_eq_getElem hi]
  · ext i hi
    rw [BitVec.getElem_extractLsb', status_getLsbD, if_neg (by omega), if_neg (by omega), if_neg (by omega),
      if_pos (by omega), Nat.add_sub_cancel_left, BitVec.getLsbD_eq_getElem hi]
  · ext i hi
    rw [BitVec.getElem_extractLsb', status_getLsbD, if_neg (by omega), if_neg (by omega), if_neg (by omega),
      if_neg (by omega)]
    simp
  · rw [step_hostStep hi, hostStep_write Nat.one_ne_zero]
    simp [State.hostWrite]

/-- Settles O10: the values are those of `State.reset`. -/
theorem resetValues : Obligations.ResetValues := by
  unfold Obligations.ResetValues
  refine ⟨rfl, rfl, rfl, rfl, rfl, rfl, rfl, rfl, rfl, rfl, rfl, rfl, rfl, rfl, rfl, rfl, rfl, rfl, rfl, rfl, rfl, rfl,
    fun _ => rfl, rfl⟩

/-- Settles O48: the block at rest. -/
theorem resetGood : Obligations.ResetGood := by
  unfold Obligations.ResetGood
  exact good_of_idle Memory.wf_nil rfl rfl rfl rfl

/-- Settles O19, phase by phase; the two command phases also by the PPB operation. -/
theorem phaseTable : Obligations.PhaseTable := by
  unfold Obligations.PhaseTable
  intro s
  cases hp : s.ph
  case ppbCmd1 | ppbCmd2 => cases ho : s.ppbop <;> simp [State.instrAt, hp, ho]
  all_goals simp [State.instrAt, hp, prgAddr_toNat, exitAddr]

end

/-! When a step is a next state: the sequencer's by its phase and the slice it reads, a command word's by `BUSY` and
the configuration. -/

namespace Sys2Proof.Machine

variable {s t : State}

/-! ### A phase's row has a meaning in its phase -/

/-- The phase reads `slice(BANK)` only where all of it has been written (R321). -/
def State.imageReady (s : State) : Prop :=
  s.ph = .prgPage ∨ s.ph = .vfyCrc → s.slice ≠ none

/-- A row other than the page program and the CRC reads no image byte. -/
theorem imageReady_of_instrAt {i : Instr} (hi : s.instrAt = some i) (hp : ∀ a m, i ≠ .pgm a m)
    (hc : ∀ a, i ≠ .crc a) : s.imageReady := by
  rintro (h | h) <;> simp only [State.instrAt, h, Option.some.injEq] at hi
  · exact absurd hi.symm (hp _ _)
  · exact absurd hi.symm (hc _)

/-- In the phase that issues it, a row is a next state or finds an unwritten byte, never a fault (R127, R321). -/
theorem exec_issued_outcome {i : Instr} (hi : s.instrAt = some i) :
    (s.imageReady ∧ ∃ t, exec i s = .next t) ∨ (¬s.imageReady ∧ exec i s = .refused .imageByteUnwritten) := by
  cases instrAt_issues hi with
  | rst | r | erase => exact .inl ⟨imageReady_of_instrAt hi (by simp) (by simp), _, if_pos hi⟩
  | pgm hp => cases hs : s.slice <;> simp [exec, execPgm, hi, hs, State.imageReady, hp]
  | crc hp => cases hs : s.slice <;> simp [exec, execCrc, hi, hs, State.imageReady, hp]
  | poll hp =>
    refine .inl ⟨imageReady_of_instrAt hi (by simp) (by simp), ?_⟩
    rcases hp with hp | hp <;> simp only [exec, execPoll, hp] <;> exact ⟨_, rfl⟩
  | verifyPass hp =>
    refine .inl ⟨imageReady_of_instrAt hi (by simp) (by simp), ?_⟩
    rcases hp with hp | hp <;> simp only [exec, execVerifyPass, hp] <;> exact ⟨_, rfl⟩
  | @cycle _ p hc =>
    refine .inl ⟨imageReady_of_instrAt hi ?_ ?_, _, (exec_cycle hc s).trans (emit_issued hi ..)⟩
    · rintro _ _ rfl; cases hc
    · rintro _ rfl; cases hc

/-! ### A step of the sequencer -/

/-- `IDLE`, the internal phases of PROGRAM and `PPB_RET`: no row of the table runs there (R30). -/
def rowless : List Phase :=
  [.idle, .prgCheck, .prgHead, .prgLock, .prgNext, .prgRetry, .ppbRet]

theorem instrAt_rowless (h : s.ph ∈ rowless) : s.instrAt = none := by
  simp only [rowless, List.mem_cons, List.not_mem_nil, or_false] at h
  rcases h with h | h | h | h | h | h | h <;> simp only [State.instrAt, h]

theorem runPhase_rowless (h : s.ph ∈ rowless) : runPhase s = .next s.internal := by
  simp only [rowless, List.mem_cons, List.not_mem_nil, or_false] at h
  rcases h with h | h | h | h | h | h | h <;> simp only [runPhase, State.internal, h]

theorem runPhase_row {i : Instr} (hi : s.instrAt = some i) : runPhase s = exec i s := by
  have hp : s.ph ∉ rowless := fun h => by simp [instrAt_rowless h] at hi
  unfold runPhase
  split
  case h_8 => simp only [hi]
  all_goals simp_all [rowless]

theorem runPhase_stuck (hp : s.ph ∉ rowless) (hi : s.instrAt = none) :
    runPhase s = if s.dialectConfigured s.dialect then .fault .phaseWithoutTransaction
      else .refused .scrambledNotConfigured := by
  unfold runPhase
  split
  case h_8 => simp only [hi]
  all_goals simp_all [rowless]

/-- The sequencer has a next state exactly where its phase has a row or needs none, and the bytes it reads are
written. -/
theorem runPhase_isNext_iff :
    isNext (runPhase s) = true ↔ (s.instrAt = none → s.ph ∈ rowless) ∧ s.imageReady := by
  cases hi : s.instrAt with
  | some i =>
    rw [runPhase_row hi]
    rcases exec_issued_outcome hi with ⟨hr, t, ht⟩ | ⟨hr, ht⟩ <;> simp [ht, hr, isNext]
  | none =>
    by_cases hp : s.ph ∈ rowless
    · have hr : s.imageReady := by rintro (h | h) <;> simp [h, rowless] at hp
      simp [runPhase_rowless hp, hp, hr, isNext]
    · rw [runPhase_stuck hp hi]
      split <;> simp [hp, isNext]

theorem runPhase_isNext_congr (h : t.key = s.key) : isNext (runPhase t) = isNext (runPhase s) := by
  have hi := instrAt_congr h
  simp only [State.key, Prod.mk.injEq] at h
  obtain ⟨hcfg, hph, -, -, -, -, hbank, -, -, -, -, -, -, -, himg⟩ := h
  rw [Bool.eq_iff_iff, runPhase_isNext_iff, runPhase_isNext_iff]
  simp only [State.imageReady, State.slice, hi, hcfg, hph, hbank, himg]

/-! ### A command word -/

/-- A command is taken, or ignored, unless its dialect is not configured (R49, R323). -/
theorem accept_isNext (op : Op) (d : Dialect) (v : Bool) (sec : BitVec 8) (first : State → State) :
    isNext (s.accept op d v sec first) = (s.busy || s.dialectConfigured d) := by
  unfold State.accept
  cases s.busy <;> cases s.dialectConfigured d <;> rfl

theorem accept_isFault (op : Op) (d : Dialect) (v : Bool) (sec : BitVec 8) (first : State → State) :
    isFault (s.accept op d v sec first) = false := by
  unfold State.accept
  cases s.busy <;> cases s.dialectConfigured d <;> rfl

theorem exec_command_isNext_congr {i : Instr} (hc : isCommand i = true) (hb : t.busy = s.busy)
    (hcfg : t.cfg = s.cfg) : isNext (exec i t) = isNext (exec i s) := by
  have ha (op : Op) (d : Dialect) (v : Bool) (sec : BitVec 8) (first : State → State) :
      isNext (t.accept op d v sec first) = isNext (s.accept op d v sec first) := by
    rw [accept_isNext, accept_isNext, hb]
    simp only [State.dialectConfigured, hcfg]
  cases i <;> simp only [isCommand, Bool.false_eq_true] at hc
  case ppbEraseAll | ppbWrite | ppbRead | program => exact ha ..
  all_goals rfl

theorem exec_command_isFault {i : Instr} (hc : isCommand i = true) : isFault (exec i s) = false := by
  cases i <;> simp only [isCommand, Bool.false_eq_true] at hc
  case ppbEraseAll | ppbWrite | ppbRead | program => exact accept_isFault ..
  all_goals rfl

/-! ### A host operation -/

theorem hostStep_isNext_congr (h : t.key = s.key) (op : HostOp) : isNext (hostStep op t) = isNext (hostStep op s) := by
  cases op with
  | write n v =>
    by_cases hn : n = 0
    · rw [hn, hostStep_command, hostStep_command]
      simp only [State.key, Prod.mk.injEq] at h
      obtain ⟨hcfg, -, hb, -⟩ := h
      exact exec_command_isNext_congr (decodeCommand_isCommand _) hb hcfg
    · rw [hostStep_write hn, hostStep_write hn]
      rfl
  | read | writeImage | hardwareReset => rfl
  | pass => exact runPhase_isNext_congr h

/-- A host operation raises no fault of its own. -/
theorem hostStep_isFault (hrun : isFault (runPhase s) = false) (op : HostOp) : isFault (hostStep op s) = false := by
  cases op with
  | write n v =>
    by_cases hn : n = 0
    · rw [hn, hostStep_command]
      exact exec_command_isFault (decodeCommand_isCommand _)
    · rw [hostStep_write hn]
      rfl
  | read | writeImage | hardwareReset => rfl
  | pass => exact hrun

/-! ### A step -/

theorem step_isNext_congr (hi : t.inbox = s.inbox) (hk : t.key = s.key) : isNext (step t) = isNext (step s) := by
  cases hs : s.inbox with
  | nil =>
    rw [step_runPhase hs, step_runPhase (hi.trans hs)]
    exact runPhase_isNext_congr hk
  | cons op rest =>
    rw [step_hostStep hs, step_hostStep (hi.trans hs)]
    exact hostStep_isNext_congr (t := { t with inbox := rest }) (s := { s with inbox := rest }) hk op

/-! ### In a good state every phase has its row -/

/-- The translator's bytes exist where the dialect is configured (R140, R323). -/
theorem translateBank_of_configured {d : Dialect} (hd : s.dialectConfigured d = true) (b : BitVec 11) :
    ∃ r, translateBank s.cfg b d = some r := by
  cases d with
  | direct => exact ⟨_, rfl⟩
  | scrambled =>
    obtain ⟨c, hc⟩ := Option.isSome_iff_exists.1 hd
    exact ⟨translateScrambled s.cfg c b, by simp [translateBank, hc]⟩

/-- They fit the patterns of the select cycles (R97, R142, R144). -/
theorem translateBank_ofByte {c : Config} {b : BitVec 11} {d : Dialect} {r : SelectRegs}
    (hr : translateBank c b d = some r) :
    (Sel0Data.ofByte d r.r0).isSome ∧ (Sel1Data.ofByte d r.r1).isSome ∧ (Sel3Data.ofByte d r.r3).isSome := by
  cases d with
  | direct =>
    cases hr
    rw [ofByte_translateDirect_r0, ofByte_translateDirect_r1, ofByte_translateDirect_r3]
    exact ⟨rfl, rfl, rfl⟩
  | scrambled =>
    obtain ⟨k, -, rfl⟩ := Option.map_eq_some_iff.1 hr
    exact ⟨rfl, rfl, rfl⟩

theorem halfSelect_of_configured (hd : s.dialect = .scrambled) (hc : s.dialectConfigured s.dialect = true) :
    ∃ p, s.halfSelect = some p := by
  rw [hd] at hc
  obtain ⟨c, hc⟩ := Option.isSome_iff_exists.1 hc
  exact ⟨scrHsel c (unitOf s.cfg s.bank), by simp only [State.halfSelect, hd, hc, Option.map_some]⟩

theorem State.Good.ppbop_ne_none (h : s.Good) (h3 : s.ph.routine = 3) : s.ppbop ≠ .none := by
  obtain ⟨hop, hdue⟩ := h.ppb_op h3
  rw [hdue, State.ppbOpDue]
  cases ho : s.op <;> simp_all [Op.ppbOp]

/-- In a good state every other phase has a row: a select's bytes exist and fit their patterns, a PPB command phase has
its operation (R30, R97, U16). -/
theorem State.Good.rowless_of_instrAt_none (h : s.Good) (hi : s.instrAt = none) : s.ph ∈ rowless := by
  by_contra hp
  have hd := (h.running fun hid => hp (by simp [hid, rowless])).configured
  obtain ⟨r, hr⟩ := translateBank_of_configured hd s.selectBank
  obtain ⟨h0, h1, h3⟩ := translateBank_ofByte hr
  obtain ⟨x0, h0⟩ := Option.isSome_iff_exists.1 h0
  obtain ⟨x1, h1⟩ := Option.isSome_iff_exists.1 h1
  obtain ⟨x3, h3⟩ := Option.isSome_iff_exists.1 h3
  cases hph : s.ph
  case prgHs1 | prgHs2 | vfyHs1 | vfyHs2 =>
    obtain ⟨p, hs⟩ := halfSelect_of_configured (h.half_scrambled (by rw [hph]; rfl)) hd
    simp [State.instrAt, hph, hs] at hi
  case ppbCmd1 =>
    have hop := h.ppbop_ne_none (by rw [hph]; rfl)
    cases ho : s.ppbop <;> simp_all [State.instrAt]
  case ppbCmd2 =>
    have hop := h.ppbop_ne_none (by rw [hph]; rfl)
    have hrd := h.not_read (by rw [hph]; rfl)
    cases ho : s.ppbop <;> simp_all [State.instrAt]
  all_goals simp [State.instrAt, State.selectRegs, hph, hr, h0, h1, h3, rowless] at hi hp

theorem State.Good.runPhase_isFault (h : s.Good) : isFault (runPhase s) = false := by
  cases hi : s.instrAt with
  | none => rw [runPhase_rowless (h.rowless_of_instrAt_none hi)]; rfl
  | some i =>
    rw [runPhase_row hi]
    rcases exec_issued_outcome hi with ⟨-, t, ht⟩ | ⟨-, ht⟩ <;> rw [ht] <;> rfl

end Sys2Proof.Machine

/-! What a phase sends, and what a step adds to the history. -/

namespace Sys2Proof.Machine

variable {s t : State}

/-! ### The addresses of R61's table -/

theorem halfSelect_eq_some {p : (Addr × Byte) × (Addr × Byte)} (h : s.halfSelect = some p) :
    ∃ c u, s.cfg.scr = some c ∧ p = scrHsel c u := by
  unfold State.halfSelect at h
  split at h
  · cases h
  · obtain ⟨c, hc, rfl⟩ := Option.map_eq_some_iff.1 h
    exact ⟨c, _, hc, rfl⟩

theorem emits_prgAddr (s : State) : s.emits (prgAddr s.cfg) := by
  simp [State.emits, prgAddr_toNat]

theorem emits_scrHsel {c : Scrambled} (hc : s.cfg.scr = some c) (u : BitVec 3) {a : Addr}
    (ha : a = (scrHsel c u).1.1 ∨ a = (scrHsel c u).2.1) : s.emits a := by
  have hx : ∃ k v, s.cfg.scr = some k ∧ (a = (scrHsel k v).1.1 ∨ a = (scrHsel k v).2.1) := ⟨c, u, hc, ha⟩
  simp only [State.emits, hx, or_true]

theorem emits_halfSelect {p : (Addr × Byte) × (Addr × Byte)} (h : s.halfSelect = some p) :
    s.emits p.1.1 ∧ s.emits p.2.1 := by
  obtain ⟨c, u, hc, rfl⟩ := halfSelect_eq_some h
  exact ⟨emits_scrHsel hc u (.inl rfl), emits_scrHsel hc u (.inr rfl)⟩

/-- Every bus command cycle of a phase writes at an address of the table (R61, R97). -/
theorem cycle_emits {i : Instr} {a : Addr} {d : Byte} (hi : s.instrAt = some i) (hc : i.cycle = some (a, d)) :
    s.emits a := by
  cases hp : s.ph <;>
    simp only [State.instrAt, hp, reduceCtorEq, Option.some.injEq, Option.pure_def, Option.bind_eq_bind,
      Option.bind_eq_some_iff, Option.map_eq_some_iff] at hi
  case prgHs1 | vfyHs1 =>
    obtain ⟨p, hs, rfl⟩ := hi
    cases hc
    exact (emits_halfSelect hs).1
  case prgHs2 | vfyHs2 =>
    obtain ⟨p, hs, rfl⟩ := hi
    cases hc
    exact (emits_halfSelect hs).2
  case prgSel0 | vfySel0 | ppbSel0 | prgSel1 | vfySel1 | ppbSel1 | prgSel3 | vfySel3 | ppbSel3 =>
    obtain ⟨_, _, _, _, rfl⟩ := hi
    cases hc
    simp [State.emits]
  case ppbCmd1 | ppbCmd2 =>
    cases ho : s.ppbop <;> simp only [ho, reduceCtorEq, Option.some.injEq] at hi
    all_goals subst hi; cases hc; simp [State.emits]
  all_goals
    subst hi
    cases hc <;> simp [State.emits, exitAddr]

/-! ### The request of a phase -/

theorem slice_eq_some {bytes : List Byte} :
    s.slice = some bytes ↔ Memory.covers s.img (s.bank.toNat * 0x4000) 0x4000 = true ∧
      Memory.bytes s.img (s.bank.toNat * 0x4000) 0x4000 = bytes := by
  simp only [State.slice, Config.bankBytes_eq, Option.ite_none_right_eq_some, Option.some.injEq]

theorem slice_eq_none : s.slice = none ↔ ¬Memory.covers s.img (s.bank.toNat * 0x4000) 0x4000 = true := by
  simp only [State.slice, Config.bankBytes_eq, ite_eq_right_iff, reduceCtorEq, imp_false]

theorem slice_length {bytes : List Byte} (h : s.slice = some bytes) : bytes.length = 0x4000 := by
  obtain ⟨hc, rfl⟩ := slice_eq_some.1 h
  exact Memory.bytes_length _ _ _ hc

/-- The requests a phase can send, with their operands (R95, R123 to R127). -/
inductive Sends (s : State) : BusReq → Prop where
  | reset : Sends s .reset
  | write {a : Addr} (d : Byte) (h : s.emits a) : Sends s (.write a d)
  | read : Sends s (.read s.cfg.st 1)
  | erase : Sends s (.eraseSector s.dialect)
  | page {bytes : List Byte} (h : s.slice = some bytes) :
    Sends s (.programPage (prgAddr s.cfg) bytes s.dialect true)
  | crc : Sends s (.readCrc16 (prgAddr s.cfg) 0x4000)

theorem request_sends {req : BusReq} (h : s.request = some req) : Sends s req := by
  cases hi : s.instrAt with
  | none => simp [State.request, hi] at h
  | some i =>
    cases instrAt_issues hi with
    | poll | verifyPass => simp [State.request, hi, Instr.cycle] at h
    | @cycle _ p hc =>
      obtain ⟨a, d⟩ := p
      rw [request_cycle hi hc] at h
      cases h
      exact .write d (cycle_emits hi hc)
    | pgm =>
      simp only [State.request, hi, Option.map_eq_some_iff] at h
      obtain ⟨bytes, hs, rfl⟩ := h
      exact .page hs
    | crc =>
      simp only [State.request, hi, Option.map_eq_some_iff, Config.bankBytes_eq] at h
      obtain ⟨bytes, -, rfl⟩ := h
      exact .crc
    | rst | r | erase =>
      simp only [State.request, hi, Option.some.injEq] at h
      subst h
      constructor

/-! ### The history -/

theorem failDispatch_trace (s : State) : s.failDispatch.trace = s.trace := by
  unfold State.failDispatch
  split
  case h_8 => split <;> rfl
  all_goals rfl

theorem issued_trace (i : Instr) (s : State) : (issued i s).trace = s.trace := by
  unfold issued
  split
  · unfold State.raiseEraseEvent
    split <;> rfl
  all_goals rfl

theorem statusRead_trace (b : Byte) (s : State) : (s.statusRead b).trace = s.trace := by
  unfold State.statusRead
  split
  · rfl
  all_goals split <;> rfl

theorem pollRead_trace (b : Byte) (s : State) : (s.pollRead b).trace = s.trace := by
  unfold State.pollRead
  split
  case h_4 =>
    split
    · split <;> rfl
    · rfl
  all_goals rfl

theorem vfyCompare_trace (act : BitVec 16) (s : State) : (s.vfyCompare act).trace = s.trace := by
  unfold State.vfyCompare
  split <;> rfl

/-- Consuming an answer adds nothing to the history (R70). -/
theorem afterOk_trace (i : Instr) (rd : BitVec 16) (s : State) : (afterOk i rd s).trace = s.trace := by
  cases i
  case rst => simp only [afterOk, State.afterReset]; split <;> rfl
  case r =>
    simp only [afterOk, State.afterRead]
    split
    · exact statusRead_trace _ s
    · exact pollRead_trace _ s
  case crc => exact vfyCompare_trace rd s
  case sel3 => simp only [afterOk, State.endSelect]; split <;> rfl
  case hs1 => simp only [afterOk, State.nextHalf]; split <;> rfl
  case hs2 => simp only [afterOk, State.endHalf]; split <;> rfl
  all_goals rfl

theorem Transacts.trace {i : Instr} {req : BusReq} (h : Transacts i req s t) :
    t.trace = s.trace ∨ ∃ ans, t.trace = ⟨req, ans⟩ :: s.trace := by
  cases h with
  | held => exact .inl (by rw [hold_trace, issued_trace])
  | failed => exact .inr ⟨.fail, by rw [failDispatch_trace, answered_trace, issued_trace]⟩
  | done ans rd => exact .inr ⟨ans, by rw [afterOk_trace, answered_trace, issued_trace]⟩

theorem internal_trace (s : State) : s.internal.trace = s.trace := by
  unfold State.internal
  split
  case h_1 =>
    unfold State.prgCheck
    split
    · rfl
    · split <;> rfl
  case h_2 =>
    unfold State.prgHead
    split
    · split <;> rfl
    · split <;> rfl
  case h_3 => unfold State.prgLock; split <;> rfl
  case h_5 => unfold State.retry; split <;> rfl
  case h_6 => unfold State.ppbRet; split <;> rfl
  case h_7 =>
    unfold State.vfyHead
    split
    · rfl
    · split <;> rfl
  all_goals rfl

end Sys2Proof.Machine

/-! The statements of the family on the memory: each settled from the lemmas above. -/

section
open Sys2Proof Sys2Proof.Machine

/-- Settles O50: a good state's phase has its row, so only the host's refusals and an unwritten byte stop it. -/
theorem goodStepsAreNext : Obligations.GoodStepsAreNext := by
  unfold Obligations.GoodStepsAreNext
  intro s h
  constructor
  · cases hi : s.inbox with
    | nil =>
      rw [step_runPhase hi]
      exact h.runPhase_isFault
    | cons op rest =>
      have hr : State.Good { s with inbox := rest } := h.congr rfl h.outstanding_eq
      rw [step_hostStep hi]
      exact hostStep_isFault hr.runPhase_isFault op
  · intro hi hslice
    rw [step_runPhase hi]
    exact runPhase_isNext_iff.2 ⟨h.rowless_of_instrAt_none, hslice⟩

/-- Settles O51: whether there is a step is read off the host's operation and the fields of `State.key`, and the
answers are not among them. -/
theorem nextWhateverTheAnswers : Obligations.NextWhateverTheAnswers := by
  unfold Obligations.NextWhateverTheAnswers
  intro s script tick
  exact step_isNext_congr rfl rfl

/-- Settles O54, by the request the phase sends. -/
theorem requestsOfTheTable : Obligations.RequestsOfTheTable := by
  unfold Obligations.RequestsOfTheTable
  intro s req hq
  cases request_sends hq with
  | reset | erase => simp [BusReq.kind]
  | write d h => simp [BusReq.kind, h]
  | read => simp [BusReq.kind, State.emits]
  | page h => simp [BusReq.kind, emits_prgAddr, prgAddr_toNat, slice_length h]
  | crc => simp [BusReq.kind, emits_prgAddr, prgAddr_toNat]

/-- Settles O55: the phase's transaction ends or stays outstanding (R128), and an internal phase has none. -/
theorem oneTransactionPerStep : Obligations.OneTransactionPerStep := by
  unfold Obligations.OneTransactionPerStep
  intro s t hi ht
  rw [step_runPhase hi] at ht
  rcases runPhase_cases ht with ⟨i, req, -, hq, hs⟩ | rfl
  · exact hs.trace.imp_right fun ⟨ans, h⟩ => ⟨req, ans, hq, h⟩
  · exact .inl (internal_trace s)

/-- Settles O9: the slice's one walk over a canonical image answers what reading byte by byte answers. -/
theorem sliceOfBank : Obligations.SliceOfBank := by
  unfold Obligations.SliceOfBank
  rintro s ⟨hw, -⟩
  refine ⟨fun bytes hs => ⟨slice_length hs, fun i hi => ?_⟩, ?_⟩
  · obtain ⟨hc, rfl⟩ := slice_eq_some.1 hs
    exact (Memory.bytes_getElem? hw _ _ hc i hi).symm
  · rw [slice_eq_none, Memory.covers_iff hw]
    simp only [not_forall, Option.not_isSome_iff_eq_none, exists_prop]

/-- Settles O8, by the laws of a read after a write. -/
theorem imageWrite : Obligations.ImageWrite := by
  unfold Obligations.ImageWrite
  intro s k b rest hb hi
  refine ⟨Memory.write s.img k.toNat b, ?_, Memory.read_write_same _ _ _, fun j hj => Memory.read_write_other _ _ hj,
    fun hw => Memory.write_wf b hw k.isLt⟩
  simp [step_hostStep hi, hostStep, State.hostWriteImage, hb]

/-- Settles O18: beside the answer drawn, both write only the fields their definitions name. -/
theorem transactionFrame : Obligations.TransactionFrame := by
  unfold Obligations.TransactionFrame
  intro s req ans
  simp [State.answered, State.hold, drawReply_eq]

end

/-! The decoder inverts the encoder: command words in both directions, packed bus requests, and bus command cycles in
the contexts that emit them. -/

namespace Sys2Proof.Machine

/-! ### Command words -/

/-- A command word is put together again from its fields (R90). -/
theorem commandWord_fields (word : BitVec 16) :
    commandWord (word.extractLsb' 0 3) (Dialect.ofBit (word.extractLsb' 3 1)) (word.getLsbD 4)
      (word.extractLsb' 5 3) (word.extractLsb' 8 8) = word := by
  rw [commandWord, Dialect.bit_ofBit]
  refine BitVec.eq_of_getLsbD_eq fun i hi => ?_
  show (word.extractLsb' 8 8 ++ word.extractLsb' 5 3 ++ BitVec.ofBool (word.getLsbD 4) ++ word.extractLsb' 3 1 ++
    word.extractLsb' 0 3 : BitVec (8 + 3 + 1 + 1 + 3)).getLsbD i = word.getLsbD i
  simp only [BitVec.getLsbD_append, BitVec.getLsbD_extractLsb', BitVec.getLsbD_ofBool]
  interval_cases i <;> simp

/-- Every word decodes to a well-formed row that has that word: by the reserved bits, then by the opcode (R92, R94). -/
theorem encode_decodeCommand (word : BitVec 16) :
    (decodeCommand word).wf = true ∧ encode (decodeCommand word) = some (.cmd16 word) := by
  have hword := commandWord_fields word
  have hopc : word.extractLsb' 0 3 = BitVec.ofNat 3 (word.extractLsb' 0 3).toNat := by
    rw [BitVec.ofNat_toNat, BitVec.setWidth_eq]
  have hlt := (word.extractLsb' 0 3).isLt
  unfold decodeCommand
  dsimp only
  split_ifs with hr
  · exact ⟨bne_iff_ne.2 hr, congrArg (some <| Code.cmd16 ·) hword⟩
  · rw [not_not.1 hr, hopc] at hword
    generalize (word.extractLsb' 0 3).toNat = opc at hword hlt ⊢
    interval_cases opc <;> exact ⟨rfl, congrArg (some <| Code.cmd16 ·) hword⟩

theorem decodeCommand_of_encode {i : Instr} {word : BitVec 16} (hw : i.wf = true)
    (he : encode i = some (.cmd16 word)) : decodeCommand word = i := by
  cases i <;> cases he
  case illegalRsv opc d v rsv sec =>
    have hr : rsv ≠ 0#3 := by simpa [Instr.wf] using hw
    simp [decodeCommand, hr]
  all_goals simp [decodeCommand]

/-- The four illegal rows with these fields (R94). -/
def illegalRows (opc rsv : BitVec 3) (d : Dialect) (v : Bool) (sec : BitVec 8) : List Instr :=
  [.illegal5 d v sec, .illegal6 d v sec, .illegal7 d v sec, .illegalRsv opc d v rsv sec]

/-- A word with a reserved bit set or an opcode above 4 is one of them, by the same two tests. -/
theorem decodeCommand_mem_illegalRows {word : BitVec 16}
    (h : word.extractLsb' 5 3 ≠ 0 ∨ 5 ≤ (word.extractLsb' 0 3).toNat) :
    ∃ opc rsv d v sec, decodeCommand word ∈ illegalRows opc rsv d v sec := by
  refine ⟨word.extractLsb' 0 3, word.extractLsb' 5 3, Dialect.ofBit (word.extractLsb' 3 1), word.getLsbD 4,
    word.extractLsb' 8 8, ?_⟩
  unfold decodeCommand
  dsimp only
  split_ifs with hr
  · simp [illegalRows]
  · have ho := h.resolve_left hr
    split
    case h_6 | h_7 | h_8 => simp [illegalRows]
    all_goals omega

/-- At rest each of them reports `IllegalCommand` (R94). -/
theorem exec_illegalRows {s : State} (hb : s.busy = false) {opc rsv : BitVec 3} {d : Dialect} {v : Bool}
    {sec : BitVec 8} {i : Instr} (hi : i ∈ illegalRows opc rsv d v sec) :
    exec i s = .next { s with result := .illegalCommand, done := true, errcnt := 0 } := by
  have hrej : s.rejectCommand = { s with result := .illegalCommand, done := true, errcnt := 0 } := by
    simp [State.rejectCommand, hb]
  rw [← hrej]
  simp only [illegalRows, List.mem_cons, List.not_mem_nil, or_false] at hi
  rcases hi with rfl | rfl | rfl | rfl <;> rfl

/-! ### Bus requests -/

theorem decodeRequest_of_encode {i : Instr} {word : BitVec 40} (hw : i.wf = true)
    (he : encode i = some (.busreq word)) : decodeRequest word = .ok i := by
  cases i <;> cases he
  case pgm | crc => simp [decodeRequest, of_decide_eq_true hw]
  all_goals simp [decodeRequest]

/-! ### Bus command cycles -/

theorem decodeFixedData_cycleWord (a : Addr) (d : Byte) (i : Addr → Instr) :
    decodeFixedData (cycleWord a d) d i = .ok (i a) := by
  simp [decodeFixedData]

section select
variable {c : CycleContext} (word : BitVec 24)

theorem decodeCycle_sel0 (h : c.ph.selIndex = some 0) : decodeCycle c word =
    decodeSelect ((Sel0Data.ofByte c.dialect (word.extractLsb' 0 8)).map (.sel0 (word.extractLsb' 8 16))) := by
  cases hp : c.ph <;> rw [hp] at h <;> cases h <;> simp only [decodeCycle, hp]

theorem decodeCycle_sel1 (h : c.ph.selIndex = some 1) : decodeCycle c word =
    decodeSelect ((Sel1Data.ofByte c.dialect (word.extractLsb' 0 8)).map (.sel1 (word.extractLsb' 8 16))) := by
  cases hp : c.ph <;> rw [hp] at h <;> cases h <;> simp only [decodeCycle, hp]

theorem decodeCycle_sel2 (h : c.ph.selIndex = some 2) : decodeCycle c word = decodeFixedData word 0x00 .sel2 := by
  cases hp : c.ph <;> rw [hp] at h <;> cases h <;> simp only [decodeCycle, hp]

theorem decodeCycle_sel3 (h : c.ph.selIndex = some 3) : decodeCycle c word =
    decodeSelect ((Sel3Data.ofByte c.dialect (word.extractLsb' 0 8)).map (.sel3 (word.extractLsb' 8 16))) := by
  cases hp : c.ph <;> rw [hp] at h <;> cases h <;> simp only [decodeCycle, hp]

end select

/-- In a context that emits it, a cycle's pattern is decoded to it (R97). -/
theorem decodeCycle_of_encode {c : CycleContext} {i : Instr} {word : BitVec 24} (hin : i.cycleIn c = true)
    (he : encode i = some (.cyc24 word)) : decodeCycle c word = .ok i := by
  cases i <;> cases he <;> replace hin := of_decide_eq_true hin
  case ent1 | ent2 | ent3 => simp only [decodeCycle, hin]; rfl
  case ppbe1 | ppbe2 | ppbw1 | ppbw2 | ppbr1 =>
    simp only [decodeCycle, hin.1, hin.2]
    exact decodeFixedData_cycleWord ..
  case seclo => simp [decodeCycle, hin]
  case sechi | exit1 | exit2 =>
    simp only [decodeCycle, hin]
    exact decodeFixedData_cycleWord ..
  case sel0 a d =>
    rw [decodeCycle_sel0 _ hin.1, ← hin.2, cycleWord_addr, cycleWord_data, sel0_ofByte_byte]
    rfl
  case sel1 a d =>
    rw [decodeCycle_sel1 _ hin.1, ← hin.2, cycleWord_addr, cycleWord_data, sel1_ofByte_byte]
    rfl
  case sel2 =>
    rw [decodeCycle_sel2 _ hin]
    exact decodeFixedData_cycleWord ..
  case sel3 a d =>
    rw [decodeCycle_sel3 _ hin.1, ← hin.2, cycleWord_addr, cycleWord_data, sel3_ofByte_byte]
    rfl
  case hs1 | hs2 =>
    obtain ⟨hp | hp, hd⟩ := hin <;> simp [decodeCycle, hp, hd]

theorem cycle_of_encode {i : Instr} {word : BitVec 24} (he : encode i = some (.cyc24 word)) : i.cycle ≠ none := by
  rintro hc
  cases i <;> cases he <;> cases hc

/-! ### The row of a phase -/

/-- A row a phase issues is well formed: the program window fits the bus space (R62). -/
theorem Issues.wf {s : State} {i : Instr} (h : Issues s i) : i.wf = true := by
  have hprg : (prgAddr s.cfg).toNat ≤ Config.prgMax := by
    rw [prgAddr_toNat]
    exact Nat.le_of_lt_succ s.cfg.prg.isLt
  cases h with
  | pgm | crc => exact decide_eq_true hprg
  | cycle hc => cases i <;> cases hc <;> rfl
  | rst | r | erase | poll | verifyPass => rfl

/-- It is no bus command cycle, or one its phase emits (R97). -/
theorem Issues.cycleIn {s : State} {i : Instr} (h : Issues s i) :
    i.cycle = none ∨ i.cycleIn s.cycleContext = true := by
  cases h with
  | cycle _ hin => exact .inr hin
  | rst | r | erase | pgm | crc | poll | verifyPass => exact .inl rfl

/-! ### A step of the sequencer -/

theorem step_sequencerTurn {s u : State} (h : s.sequencerTurn u) : step s = runPhase u := by
  rcases h with ⟨hi, rfl⟩ | ⟨rest, hi, rfl⟩
  · exact step_runPhase hi
  · exact step_hostStep hi

end Sys2Proof.Machine

/-! The statements of the family on the encoding: each settled from the lemmas above. -/

section
open Sys2Proof Sys2Proof.Machine

/-- Settles O46, format by format; a cycle in the context that emits it. -/
theorem decodeEncode : Obligations.DecodeEncode := by
  unfold Obligations.DecodeEncode
  intro c i k hw hin he
  cases k with
  | cmd16 word => exact congrArg Except.ok (decodeCommand_of_encode hw he)
  | busreq word => exact decodeRequest_of_encode hw he
  | cyc24 word => exact decodeCycle_of_encode (hin.resolve_left (cycle_of_encode he)) he

/-- Settles O44: the row is well formed, and its phase is a context that emits it. -/
theorem issuedRowsDecode : Obligations.IssuedRowsDecode := by
  unfold Obligations.IssuedRowsDecode
  intro s i k hi he
  have h := instrAt_issues hi
  exact ⟨h.wf, decodeEncode s.cycleContext i k h.wf h.cycleIn he⟩

/-- Settles O47: a word is put together from the fields it was decoded to, and no other row decodes from it. -/
theorem encodeDecodeCommand : Obligations.EncodeDecodeCommand := by
  unfold Obligations.EncodeDecodeCommand
  intro word
  obtain ⟨hw, he⟩ := encode_decodeCommand word
  exact ⟨decodeCommand_isCommand word, hw, he, fun i hi hk => (decodeCommand_of_encode hi hk).symm⟩

/-- Settles O1, by the meaning of `NOP` (R93). -/
theorem nopDoesNothing : Obligations.NopDoesNothing := by
  unfold Obligations.NopDoesNothing
  exact ⟨fun _ _ _ _ => rfl, by decide⟩

/-- Settles O3: the four illegal rows share one meaning, and an illegal word is one of them. -/
theorem illegalCommands : Obligations.IllegalCommands := by
  unfold Obligations.IllegalCommands
  refine ⟨fun s word hb h => ?_, fun s opc rsv d v sec hb i hi => exec_illegalRows hb hi⟩
  obtain ⟨opc, rsv, d, v, sec, hm⟩ := decodeCommand_mem_illegalRows h
  exact exec_illegalRows hb hm

/-- Settles O43: a write to `CMD` decodes to the instruction whose word it is; the sequencer's turn runs the phase's
row. -/
theorem stepRunsInstruction : Obligations.StepRunsInstruction := by
  unfold Obligations.StepRunsInstruction
  refine ⟨fun s i word rest hw he hi => ?_, fun s u ht => ?_⟩
  · rw [step_hostStep hi, hostStep_command, BitVec.setWidth_setWidth_of_le _ (by decide), BitVec.setWidth_eq,
      decodeCommand_of_encode hw he]
  · rw [step_sequencerTurn ht]
    exact ⟨rfl, fun i hi => runPhase_row hi, fun hp => by simp only [runPhase, hp]⟩

/-- Settles O45: each word is evaluated. -/
theorem wordsDecode : Obligations.WordsDecode := by
  unfold Obligations.WordsDecode
  decide

end

/-! The transaction of a row as an equation: what issuing it writes, what its row answers in the phase that issues it,
and a write as its cycle. -/

namespace Sys2Proof.Machine

variable {s : State} {i : Instr} {req : BusReq}

/-! ### What issuing a row writes -/

/-- The erase event is raised where the erase is not outstanding yet (R168, R292). -/
theorem raiseEraseEvent_eq (s : State) :
    s.raiseEraseEvent =
      { s with
        events := if s.outstanding = none then .erase (BitVec.ofNat 8 (s.bank.toNat / 8)) :: s.events
          else s.events } := by
  unfold State.raiseEraseEvent
  split
  next ho => simp [State.raiseEvent, sectorOf, ho]
  next ho => rw [if_neg (by simp [ho])]

/-- Issuing a row writes only `MM_EXP` (R257) and the events (R168). -/
theorem issued_eq (i : Instr) (s : State) :
    issued i s = { s with mmExp := (issued i s).mmExp, events := (issued i s).events } := by
  cases i
  case erase => simp only [issued, raiseEraseEvent_eq]
  all_goals rfl

theorem issued_reply (i : Instr) (s : State) : (issued i s).reply = s.reply := by
  rw [issued_eq]
  rfl

theorem issued_hold (i : Instr) (s : State) (req : BusReq) :
    (issued i s).hold req = { s.hold req with mmExp := (issued i s).mmExp, events := (issued i s).events } := by
  conv_lhs => rw [issued_eq]
  simp [State.hold, drawReply_eq]

/-- `MM_EXP` is written in `VFY_CRC` only, with the slice's CRC (log 10). -/
theorem issued_mmExp (hi : s.instrAt = some i) :
    (issued i s).mmExp = s.mmExp ∨
      s.ph = .vfyCrc ∧ ∃ bytes, s.slice = some bytes ∧ (issued i s).mmExp = crc16 s.cfg bytes := by
  cases i
  case crc =>
    cases hs : s.slice with
    | none => simp [issued, hs]
    | some bytes => exact .inr ⟨(instrAt_crc hi).2, bytes, rfl, by simp [issued, hs]⟩
  case erase => simp [issued, raiseEraseEvent_eq]
  all_goals exact .inl rfl

/-- The erase event is raised in `PRG_ERASE` only (R168). -/
theorem issued_events (hi : s.instrAt = some i) :
    (issued i s).events =
      if s.ph = .prgErase ∧ s.outstanding = none then .erase (BitVec.ofNat 8 (s.bank.toNat / 8)) :: s.events
      else s.events := by
  by_cases hp : s.ph = .prgErase
  · have he : i = .erase s.dialect := by simpa [State.instrAt, hp] using hi.symm
    subst he
    simp [issued, raiseEraseEvent_eq, hp]
  · rw [if_neg fun h => hp h.1]
    cases i
    case erase => exact absurd (instrAt_erase hi).2 hp
    all_goals rfl

/-! ### The row in the phase that issues it -/

theorem exec_rst_issued (hi : s.instrAt = some .rst) : exec .rst s = .next (s.transactReset State.afterReset) :=
  if_pos hi

/-- A row other than `RST` that sends a request is the issuing and one transaction (R70, R127). -/
theorem exec_transact (hi : s.instrAt = some i) (hq : s.request = some req) (hr : i ≠ .rst) :
    exec i s = .next ((issued i s).transact req (afterOk i) State.failDispatch) := by
  cases instrAt_issues hi with
  | rst => exact absurd rfl hr
  | r | erase =>
    simp only [State.request, hi, Option.some.injEq] at hq
    subst hq
    exact if_pos hi
  | pgm =>
    simp only [State.request, hi, Option.map_eq_some_iff] at hq
    obtain ⟨bytes, hs, rfl⟩ := hq
    simp only [exec, execPgm, hi, if_true, hs]
    rfl
  | crc =>
    simp only [State.request, hi, Option.map_eq_some_iff] at hq
    obtain ⟨bytes, hs, rfl⟩ := hq
    simp only [exec, execCrc, hi, if_true, hs, issued, Option.map_some, Option.getD_some]
    rfl
  | poll | verifyPass => simp [State.request, hi, Instr.cycle] at hq
  | @cycle _ p hc =>
    obtain ⟨a, d⟩ := p
    rw [request_cycle hi hc, Option.some.injEq] at hq
    subst hq
    rw [exec_cycle hc, emit_issued hi, issued_cycle hc, funext (afterOk_cycle hc)]

/-- Without an answer the request is issued and stays outstanding, that of `RST` too (R128). -/
theorem exec_unanswered (hw : s.reply = .wait) (hi : s.instrAt = some i) (hq : s.request = some req) :
    exec i s = .next ((issued i s).hold req) := by
  by_cases hr : i = .rst
  · subst hr
    simp only [State.request, hi, Option.some.injEq] at hq
    subst hq
    rw [exec_rst_issued hi, transactReset_wait hw]
    rfl
  · rw [exec_transact hi hq hr, transact_wait ((issued_reply i s).trans hw)]

/-! ### A write and its cycle -/

/-- The write a phase issues is the bus command cycle of its pattern (R122, R97). -/
theorem exec_w_issued {a : Addr} {x : Byte} (hi : s.instrAt = some i) (hc : i.cycle = some (a, x)) :
    exec (.w a x) s = exec i s := by
  simp only [exec, execW, hi, hc, if_true]
  cases i <;> cases hc <;> rfl

/-- An answered cycle only moves to another phase (R97). -/
theorem afterOk_cycle_goto {p : Addr × Byte} (hc : i.cycle = some p) (rd : BitVec 16) (s : State) :
    ∃ ph, afterOk i rd s = s.goto ph := by
  cases i <;> cases hc
  case sel3 =>
    simp only [afterOk, State.endSelect]
    split <;> exact ⟨_, rfl⟩
  case hs1 =>
    simp only [afterOk, State.nextHalf]
    split <;> exact ⟨_, rfl⟩
  case hs2 =>
    simp only [afterOk, State.endHalf]
    split <;> exact ⟨_, rfl⟩
  all_goals exact ⟨_, rfl⟩

end Sys2Proof.Machine

/-! The statements of the family on the bus adapter: each settled from the lemmas above. -/

section
open Sys2Proof Sys2Proof.Machine

/-- Settles O30: the write runs the cycle, which is one transaction, and its `ok` only moves to another phase. -/
theorem writeIsItsCycle : Obligations.WriteIsItsCycle := by
  unfold Obligations.WriteIsItsCycle
  intro s i a x hi hc
  have he := (exec_cycle hc s).trans (emit_issued hi ..)
  refine ⟨_, (exec_w_issued hi hc).trans he, he, fun rd hr => ?_⟩
  obtain ⟨ph, hg⟩ := afterOk_cycle_goto hc 0 (s.answered (.write a x) .ok)
  simp only [transact_ok hr, BusReq.okAnswer, hg, goto_outstanding, goto_trace, answered_outstanding, answered_trace,
    and_self]

/-- Settles O41: the row issues its request and holds it, so only what issuing writes has changed. -/
theorem unansweredHolds : Obligations.UnansweredHolds := by
  unfold Obligations.UnansweredHolds
  intro s i req hw hi hq
  refine ⟨(issued i s).mmExp, issued_mmExp hi, ?_⟩
  rw [exec_unanswered hw hi hq, issued_hold, issued_events hi]

/-- Settles O20: each of the three phases issues `RST`, whose answer is consumed by `afterReset`. -/
theorem resetTransaction : Obligations.ResetTransaction := by
  unfold Obligations.ResetTransaction
  intro s hr
  have answered (hi : s.instrAt = some .rst) : exec .rst s = .next (s.answered .reset .ok).afterReset := by
    rw [exec_rst_issued hi, transactReset_answered hr]
  refine ⟨?_, fun hp => ?_⟩
  · rintro (hp | hp) <;> rw [answered (by simp only [State.instrAt, hp])] <;> simp [State.afterReset, State.goto, hp]
  · rw [answered (by simp only [State.instrAt, hp])]
    simp [State.afterReset, hp]

end

/-! The address translator: the bytes of the direct dialect as patterns and bit by bit, what they have of a bank's
sector, the two table indices of the scrambled dialect, and the half-bank select of a bank. -/

namespace Sys2Proof.Machine

/-! ### The direct dialect (R141, R142) -/

theorem translateDirect_r0 (b : BitVec 11) :
    (translateDirect b).r0 = (Sel0Data.direct (b.extractLsb' 9 2) (b.extractLsb' 3 3)).byte := by
  simp only [translateDirect, Sel0Data.byte]
  generalize b.extractLsb' 9 2 = x
  generalize b.extractLsb' 3 3 = y
  revert x y
  decide

theorem translateDirect_r1 (b : BitVec 11) :
    (translateDirect b).r1 = (Sel1Data.direct (b.extractLsb' 6 1) (b.extractLsb' 7 2)).byte := by
  simp only [translateDirect, Sel1Data.byte]
  generalize b.extractLsb' 6 1 = x
  generalize b.extractLsb' 7 2 = y
  revert x y
  decide

theorem translateDirect_r2 (b : BitVec 11) : (translateDirect b).r2 = 0x00 := rfl

theorem translateDirect_r3 (b : BitVec 11) :
    (translateDirect b).r3 = (Sel3Data.direct (b.extractLsb' 0 3)).byte := by
  simp only [translateDirect, Sel3Data.byte]
  generalize b.extractLsb' 0 3 = x
  revert x
  decide

/-- Where the index bits stand in r0, the pattern `01bb0bbb`. -/
theorem translateDirect_r0_fields (b : BitVec 11) :
    (translateDirect b).r0.extractLsb' 0 3 = b.extractLsb' 3 3 ∧ (translateDirect b).r0.getLsbD 3 = false ∧
      (translateDirect b).r0.extractLsb' 4 2 = b.extractLsb' 9 2 ∧ (translateDirect b).r0.getLsbD 6 = true ∧
      (translateDirect b).r0.getLsbD 7 = false := by
  rw [translateDirect_r0]
  generalize b.extractLsb' 9 2 = x
  generalize b.extractLsb' 3 3 = y
  revert x y
  decide

/-- Where the index bits stand in r1, the pattern `100bbb00`. -/
theorem translateDirect_r1_fields (b : BitVec 11) :
    (translateDirect b).r1.extractLsb' 0 2 = 0 ∧ (translateDirect b).r1.extractLsb' 2 2 = b.extractLsb' 7 2 ∧
      (translateDirect b).r1.getLsbD 4 = b.getLsbD 6 ∧ (translateDirect b).r1.extractLsb' 5 2 = 0 ∧
      (translateDirect b).r1.getLsbD 7 = true := by
  have hbit : b.getLsbD 6 = (b.extractLsb' 6 1).getLsbD 0 := by simp
  rw [translateDirect_r1, hbit]
  generalize b.extractLsb' 6 1 = x
  generalize b.extractLsb' 7 2 = y
  revert x y
  decide

/-- Where the index bits stand in r3, the pattern `0001bbb0`. -/
theorem translateDirect_r3_fields (b : BitVec 11) :
    (translateDirect b).r3.getLsbD 0 = false ∧ (translateDirect b).r3.extractLsb' 1 3 = b.extractLsb' 0 3 ∧
      (translateDirect b).r3.getLsbD 4 = true ∧ (translateDirect b).r3.extractLsb' 5 3 = 0 := by
  rw [translateDirect_r3]
  generalize b.extractLsb' 0 3 = x
  revert x
  decide

/-- A bank index is put together again from the fields of r0, r1 and r3 (R142). -/
theorem bankIndex_fields (b : BitVec 11) :
    b.extractLsb' 9 2 ++ b.extractLsb' 7 2 ++ b.extractLsb' 6 1 ++ b.extractLsb' 3 3 ++ b.extractLsb' 0 3 = b := by
  refine BitVec.eq_of_getLsbD_eq fun i hi => ?_
  simp only [BitVec.getLsbD_append, BitVec.getLsbD_extractLsb']
  interval_cases i <;> simp

/-- Equal bytes have equal fields, and the fields make up the index (R143). -/
theorem translateDirect_injective {b c : BitVec 11} (h : translateDirect b = translateDirect c) : b = c := by
  have h0 := ofByte_translateDirect_r0 b
  have h1 := ofByte_translateDirect_r1 b
  have h3 := ofByte_translateDirect_r3 b
  rw [h, ofByte_translateDirect_r0, Option.some.injEq, Sel0Data.direct.injEq] at h0
  rw [h, ofByte_translateDirect_r1, Option.some.injEq, Sel1Data.direct.injEq] at h1
  rw [h, ofByte_translateDirect_r3, Option.some.injEq, Sel3Data.direct.injEq] at h3
  rw [← bankIndex_fields b, ← bankIndex_fields c, h0.1, h0.2, h1.1, h1.2, h3]

/-- Banks of one sector agree on every field from bit 3 on. -/
theorem extractLsb'_of_same_sector {b c : BitVec 11} (h : b.toNat / 8 = c.toNat / 8) (k n : Nat) :
    b.extractLsb' (3 + k) n = c.extractLsb' (3 + k) n := by
  have hs : b.toNat >>> 3 = c.toNat >>> 3 := by simpa only [Nat.shiftRight_eq_div_pow] using h
  refine BitVec.eq_of_toNat_eq ?_
  rw [BitVec.extractLsb'_toNat, BitVec.extractLsb'_toNat, Nat.shiftRight_add, Nat.shiftRight_add, hs]

/-! ### The scrambled dialect (R144, R145) -/

theorem outbankOf_toNat (c : Config) (b : BitVec 11) : (outbankOf c b).toNat = b.toNat / 8 := by
  have := b.isLt
  rw [outbankOf_eq, BitVec.toNat_ofNat]
  omega

/-- Where `SCR_R0` is read: outbank bits {7, 6, 2, 1, 0}. -/
def scrR0Index (o : BitVec 8) : Fin 32 :=
  (o.extractLsb' 6 2 ++ o.extractLsb' 0 3).toFin

/-- Where `SCR_R1` is read: outbank bits {5, 4}. -/
def scrR1Index (o : BitVec 8) : Fin 4 :=
  (o.extractLsb' 4 2).toFin

theorem scrR0_eq (c : Scrambled) (o : BitVec 8) : scrR0 c o = c.r0[scrR0Index o] := rfl

theorem scrR1_eq (c : Scrambled) (o : BitVec 8) : scrR1 c o = c.r1[scrR1Index o] := rfl

theorem scrR0Index_val (o : BitVec 8) : (scrR0Index o).val = o.toNat / 64 * 8 + o.toNat % 8 := by
  show (o.extractLsb' 6 2 ++ o.extractLsb' 0 3).toNat = _
  have := o.isLt
  rw [BitVec.toNat_append, ← Nat.shiftLeft_add_eq_or_of_lt (BitVec.isLt _)]
  simp only [BitVec.extractLsb'_toNat, Nat.shiftRight_eq_div_pow, Nat.shiftLeft_eq]
  omega

theorem scrR1Index_val (o : BitVec 8) : (scrR1Index o).val = o.toNat / 16 % 4 := by
  show (o.extractLsb' 4 2).toNat = _
  rw [BitVec.extractLsb'_toNat, Nat.shiftRight_eq_div_pow]

/-- Two words that agree on the bits of a field have the same field. -/
theorem extractLsb'_congr {w k n : Nat} {x y : BitVec w}
    (h : ∀ i < n, x.toNat.testBit (k + i) = y.toNat.testBit (k + i)) : x.extractLsb' k n = y.extractLsb' k n := by
  refine BitVec.eq_of_getLsbD_eq fun i hi => ?_
  rw [BitVec.getLsbD_extractLsb', BitVec.getLsbD_extractLsb', ← BitVec.testBit_toNat, ← BitVec.testBit_toNat, h i hi]

/-- `SCR_R0` depends on no other outbank bit. -/
theorem scrR0_congr (c : Scrambled) {o p : BitVec 8}
    (h : ∀ n ∈ [0, 1, 2, 6, 7], o.toNat.testBit n = p.toNat.testBit n) : scrR0 c o = scrR0 c p := by
  have high : o.extractLsb' 6 2 = p.extractLsb' 6 2 := extractLsb'_congr fun i hi => h _ (by simp; omega)
  have low : o.extractLsb' 0 3 = p.extractLsb' 0 3 := extractLsb'_congr fun i hi => h _ (by simp; omega)
  simp only [scrR0, high, low]

/-- `SCR_R1` depends on no other outbank bit. -/
theorem scrR1_congr (c : Scrambled) {o p : BitVec 8}
    (h : ∀ n ∈ [4, 5], o.toNat.testBit n = p.toNat.testBit n) : scrR1 c o = scrR1 c p := by
  have field : o.extractLsb' 4 2 = p.extractLsb' 4 2 := extractLsb'_congr fun i hi => h _ (by simp; omega)
  simp only [scrR1, field]

theorem translateBank_scrambled {k : Config} {c : Scrambled} (hc : k.scr = some c) (b : BitVec 11) :
    translateBank k b .scrambled = some (translateScrambled k c b) := by
  simp only [translateBank, hc, Option.map_some]

/-! ### The half-bank select (R149) -/

theorem halfSelect_eq {s : State} {c : Scrambled} {u : Fin 8} (hd : s.dialect = .scrambled)
    (hc : s.cfg.scr = some c) (hu : u.val = s.bank.toNat % 8) : s.halfSelect = some c.hsel[u] := by
  have hx : scrHsel c (unitOf s.cfg s.bank) = c.hsel[u] := by
    simp only [scrHsel, unitOf_toNat, ← hu, Fin.getElem_fin]
  simp only [State.halfSelect, hd, hc, Option.map_some, hx]

/-- An `ok` answer to the cycle its phase issues is consumed by the row's `afterOk` (R70, R97). -/
theorem exec_cycle_ok {s : State} {i : Instr} {a : Addr} {d : Byte} {rd : BitVec 16} (hr : s.reply = .ok rd)
    (hi : s.instrAt = some i) (hc : i.cycle = some (a, d)) :
    exec i s = .next (afterOk i 0 (s.answered (.write a d) .ok)) := by
  rw [exec_cycle hc, emit_issued hi, transact_ok hr]
  rfl

section half_select

variable {s : State} {rd : BitVec 16} {next : Phase} {p : (Addr × Byte) × (Addr × Byte)}

theorem exec_hs1_ok (hr : s.reply = .ok rd) (hs : s.halfSelect = some p)
    (hp : s.ph = .prgHs1 ∧ next = .prgHs2 ∨ s.ph = .vfyHs1 ∧ next = .vfyHs2) :
    exec (.hs1 p.1.1 p.1.2) s = .next { s.answered (.write p.1.1 p.1.2) .ok with ph := next } := by
  obtain ⟨hp, rfl⟩ | ⟨hp, rfl⟩ := hp <;>
    rw [exec_cycle_ok hr (by simp only [State.instrAt, hp, hs, Option.map_some]) rfl] <;>
    simp only [afterOk, State.nextHalf, answered_ph, hp, State.goto]

theorem exec_hs2_ok (hr : s.reply = .ok rd) (hs : s.halfSelect = some p)
    (hp : s.ph = .prgHs2 ∧ next = .prgPage ∨ s.ph = .vfyHs2 ∧ next = .vfyCrc) :
    exec (.hs2 p.2.1 p.2.2) s = .next { s.answered (.write p.2.1 p.2.2) .ok with ph := next } := by
  obtain ⟨hp, rfl⟩ | ⟨hp, rfl⟩ := hp <;>
    rw [exec_cycle_ok hr (by simp only [State.instrAt, hp, hs, Option.map_some]) rfl] <;>
    simp only [afterOk, State.endHalf, answered_ph, hp, State.goto]

end half_select

end Sys2Proof.Machine

/-! The statements of the family on the address translator: each settled from the lemmas above. -/

section
open Sys2Proof Sys2Proof.Machine

/-- Settles O12: the bytes are the patterns of R97, read field by field. -/
theorem directTranslation : Obligations.DirectTranslation := by
  unfold Obligations.DirectTranslation
  intro k b
  refine ⟨translateDirect b, rfl, ?_⟩
  simp only [translateDirect_r0_fields, translateDirect_r1_fields, translateDirect_r2, translateDirect_r3_fields,
    and_self]

/-- Settles O13: the bytes determine the index's fields, and r0 and r1 hold none below bit 3. -/
theorem directTranslationInjective : Obligations.DirectTranslationInjective := by
  unfold Obligations.DirectTranslationInjective
  intro k b c
  refine ⟨fun h => translateDirect_injective (Option.some.inj h), fun h r q hr hq => ?_⟩
  cases hr
  cases hq
  have field := extractLsb'_of_same_sector h
  refine ⟨?_, ?_, rfl⟩
  · rw [translateDirect_r0, translateDirect_r0, field 6, field 0]
  · rw [translateDirect_r1, translateDirect_r1, field 3, field 4]

/-- Settles O14: each table is read at an index that only the outbank bits it may depend on make up. -/
theorem scrambledTranslation : Obligations.ScrambledTranslation := by
  unfold Obligations.ScrambledTranslation
  intro k c b hc
  refine ⟨translateScrambled k c b, scrR0Index (outbankOf k b), scrR1Index (outbankOf k b),
    translateBank_scrambled hc b, ?_, ?_, scrR0_eq c _, scrR1_eq c _, rfl, rfl, fun d q hq => ?_⟩
  · rw [scrR0Index_val, outbankOf_toNat]
  · rw [scrR1Index_val, outbankOf_toNat]
  · rw [translateBank_scrambled hc, Option.some.injEq] at hq
    subst hq
    rw [← outbankOf_toNat k b, ← outbankOf_toNat k d]
    exact ⟨scrR0_congr c, scrR1_congr c⟩

/-- Settles O15: `translate` has a value in a configured dialect, and `crc16` always. -/
theorem pureFunctionRows : Obligations.PureFunctionRows := by
  unfold Obligations.PureFunctionRows
  refine ⟨fun s b d hd => ?_, fun s bytes => rfl⟩
  obtain ⟨r, hr⟩ := translateBank_of_configured hd b
  exact ⟨r, hr, by simp only [exec, execTranslate, hr]⟩

/-- Settles O23: the phase issues the entry's write, whose `ok` only moves to the successor. -/
theorem halfBankSelectWrites : Obligations.HalfBankSelectWrites := by
  unfold Obligations.HalfBankSelectWrites
  intro s c u rd hr hd hc hu
  have hs := halfSelect_eq hd hc hu
  exact ⟨fun hp => exec_hs1_ok hr hs (.inl ⟨hp, rfl⟩), fun hp => exec_hs2_ok hr hs (.inl ⟨hp, rfl⟩),
    fun hp => exec_hs1_ok hr hs (.inr ⟨hp, rfl⟩), fun hp => exec_hs2_ok hr hs (.inr ⟨hp, rfl⟩)⟩

end

/-! PROGRAM step by step: what every run keeps of a bank in hand, what an `ok` answer does in the phase that issues the
row, the bytes and the row of a bank select, and the phases that need no transaction. -/

namespace Sys2Proof.Machine

variable {s t : State}

/-! ### Runs -/

theorem run_good {n : Nat} (h : s.Good) (ht : Host.Core.run Sys2Proof.core n s = .next t) : t.Good := by
  induction n generalizing s with
  | zero => cases ht; exact h
  | succ n ih =>
    simp only [Host.Core.run] at ht
    split at ht
    case h_1 hs => exact ih (stepKeepsGood s _ h hs) ht
    all_goals cases ht

/-- The lock acts on the sector of the bank in hand, as numbers (R173): no bank of an image is past the last sector. -/
theorem State.Good.lock_sector_toNat (h : s.Good) (hin : s.bankInHand) (h3 : s.ph.routine = 3) :
    s.sect.toNat = s.bank.toNat / 8 := by
  have pr := h.programming_of_inHand hin
  have hle := pr.bankcount_le
  have hd := (h.in_hand hin).1
  rw [← Bool.not_eq_true, imageDone_iff] at hd
  rw [h.lock_sector h3 pr.op, sectorOf_eq, BitVec.toNat_ofNat]
  omega

/-! ### Transactions answered `ok` -/

variable {i : Instr} {req : BusReq} {rd : BitVec 16}

/-- An `ok` answer to the request its phase sends is consumed by the row's `afterOk` (R70). -/
theorem exec_ok (hr : s.reply = .ok rd) (hi : s.instrAt = some i) (hq : s.request = some req) (hne : i ≠ .rst) :
    exec i s = .next (afterOk i rd ((issued i s).answered req (req.okAnswer rd))) := by
  rw [exec_transact hi hq hne, transact_ok ((issued_reply i s).trans hr)]

theorem issued_answered (i : Instr) (s : State) (req : BusReq) (ans : Answer) :
    (issued i s).answered req ans =
      { s.answered req ans with mmExp := (issued i s).mmExp, events := (issued i s).events } := by
  conv_lhs => rw [issued_eq]
  simp [State.answered, drawReply_eq]

theorem afterErase_eq (s : State) : s.afterErase = if s.dialect = .scrambled then .prgHs1 else .prgPage := by
  unfold State.afterErase
  cases s.dialect <;> rfl

theorem afterPrgSel3_eq (s : State) :
    s.afterPrgSel3 =
      if s.bank.toNat % 8 = 0 then .prgErase else if s.dialect = .scrambled then .prgHs1 else .prgPage := by
  simp only [State.afterPrgSel3, atSectorStart_iff, afterErase_eq]

theorem afterVfySel3_eq (s : State) : s.afterVfySel3 = if s.dialect = .scrambled then .vfyHs1 else .vfyCrc := by
  unfold State.afterVfySel3
  cases s.dialect <;> rfl

/-! ### The bank select (R146) -/

section select

variable {b : BitVec 11} {r : SelectRegs}

/-- Every select byte is one of its cycle's pattern, and r2 is 0 (R97, R142, R144). -/
theorem translateBank_patterns {c : Config} {d : Dialect} (h : translateBank c b d = some r) :
    (∃ x : Sel0Data, x.dialect = d ∧ x.byte = r.r0) ∧ (∃ x : Sel1Data, x.dialect = d ∧ x.byte = r.r1) ∧
      r.r2 = 0x00 ∧ ∃ x : Sel3Data, x.dialect = d ∧ x.byte = r.r3 := by
  cases d with
  | direct =>
    cases h
    exact ⟨⟨_, rfl, (translateDirect_r0 b).symm⟩, ⟨_, rfl, (translateDirect_r1 b).symm⟩, translateDirect_r2 b,
      ⟨_, rfl, (translateDirect_r3 b).symm⟩⟩
  | scrambled =>
    obtain ⟨k, -, rfl⟩ := Option.map_eq_some_iff.1 h
    exact ⟨⟨.scrambled _, rfl, rfl⟩, ⟨.scrambled _, rfl, rfl⟩, rfl, ⟨.scrambled, rfl, rfl⟩⟩

/-- The bank a select phase translates is the selected one, in 11 bits (R166, R204, R255). -/
theorem selectBank_toNat {k : Fin 4} (hk : s.ph.selIndex = some k) : s.selectBank.toNat = s.selected % 2048 := by
  cases hp : s.ph <;> rw [hp] at hk <;> cases hk <;>
    simp [State.selectBank, State.selected, hp, Phase.routine, Phase.code]

theorem selectRegs_eq {k : Fin 4} (hk : s.ph.selIndex = some k) (hb : b.toNat = s.selected % 2048)
    (hr : translateBank s.cfg b s.dialect = some r) : s.selectRegs = some r := by
  have hbank : s.selectBank = b := BitVec.eq_of_toNat_eq ((selectBank_toNat hk).trans hb.symm)
  rw [State.selectRegs, hbank, hr]

theorem instrAt_sel0 (hk : s.ph.selIndex = some 0) (hs : s.selectRegs = some r) {d : Sel0Data}
    (hd : d.dialect = s.dialect) (hx : d.byte = r.r0) : s.instrAt = some (.sel0 s.cfg.reg0 d) := by
  have hbyte : Sel0Data.ofByte s.dialect r.r0 = some d := by rw [← hd, ← hx, sel0_ofByte_byte]
  cases hp : s.ph <;> rw [hp] at hk <;> cases hk <;> simp [State.instrAt, hp, hs, hbyte]

theorem instrAt_sel1 (hk : s.ph.selIndex = some 1) (hs : s.selectRegs = some r) {d : Sel1Data}
    (hd : d.dialect = s.dialect) (hx : d.byte = r.r1) : s.instrAt = some (.sel1 s.cfg.reg1 d) := by
  have hbyte : Sel1Data.ofByte s.dialect r.r1 = some d := by rw [← hd, ← hx, sel1_ofByte_byte]
  cases hp : s.ph <;> rw [hp] at hk <;> cases hk <;> simp [State.instrAt, hp, hs, hbyte]

theorem instrAt_sel2 (hk : s.ph.selIndex = some 2) : s.instrAt = some (.sel2 s.cfg.reg2) := by
  cases hp : s.ph <;> rw [hp] at hk <;> cases hk <;> simp [State.instrAt, hp]

theorem instrAt_sel3 (hk : s.ph.selIndex = some 3) (hs : s.selectRegs = some r) {d : Sel3Data}
    (hd : d.dialect = s.dialect) (hx : d.byte = r.r3) : s.instrAt = some (.sel3 s.cfg.reg3 d) := by
  have hbyte : Sel3Data.ofByte s.dialect r.r3 = some d := by rw [← hd, ← hx, sel3_ofByte_byte]
  cases hp : s.ph <;> rw [hp] at hk <;> cases hk <;> simp [State.instrAt, hp, hs, hbyte]

/-- The `ok` of a select's cycle before the last only moves to the next select phase. -/
theorem exec_nextSelect_ok {a : Addr} {x : Byte} (hr : s.reply = .ok rd) (hi : s.instrAt = some i)
    (hc : i.cycle = some (a, x)) (hn : afterOk i 0 = State.nextSelect) :
    exec i s = .next { s.answered (.write a x) .ok with ph := selSuccessor s.ph } := by
  rw [exec_cycle_ok hr hi hc, hn, State.nextSelect, answered_ph, State.goto]

end select

/-! ### Internal phases -/

/-- Where the phase needs no row, the sequencer's step is the internal phase (R30). -/
theorem step_internal {u : State} (h : s.sequencerTurn u) (hp : u.ph ∈ rowless) : step s = .next u.internal :=
  (step_sequencerTurn h).trans (runPhase_rowless hp)

/-- The error that is fatal is the third (R7, R177). -/
theorem nextError_fatal_iff (s : State) : (s.errcnt + 1).toNat = s.cfg.maxErrors ↔ s.errcnt + 1 = 3 := by
  rw [Config.maxErrors_eq, ← BitVec.toNat_inj]
  rfl

end Sys2Proof.Machine

/-! The statements of the family on PROGRAM: each settled from the lemmas above. -/

section
open Sys2Proof Sys2Proof.Machine

/-- Settles O52: a run ends in a good state, whose invariant is the claim of a bank in hand. -/
theorem badSectorsNeverTargeted : Obligations.BadSectorsNeverTargeted := by
  unfold Obligations.BadSectorsNeverTargeted
  intro n s t hs hrun hin
  have ht := run_good hs hrun
  obtain ⟨hd, hb⟩ := ht.in_hand hin
  rw [← Bool.not_eq_true, imageDone_iff, not_le] at hd
  rw [sectorBad_eq] at hb
  exact ⟨hd, hb, ht.lock_sector_toNat hin⟩

/-- Settles O21: the phase issues the cycle of its byte, whose `ok` only moves to the successor. -/
theorem bankSelectWrites : Obligations.BankSelectWrites := by
  unfold Obligations.BankSelectWrites
  intro s b r rd hr hb ht
  obtain ⟨h0, h1, h2, h3⟩ := translateBank_patterns ht
  refine ⟨fun hk => ⟨h0, fun d hd hx => ?_⟩, fun hk => ⟨h1, fun d hd hx => ?_⟩, fun hk => ⟨h2, ?_⟩,
    fun hk => ⟨h3, fun d hd hx => ?_⟩⟩
  · rw [exec_nextSelect_ok hr (instrAt_sel0 hk (selectRegs_eq hk hb ht) hd hx) rfl rfl, hx]
    cases hp : s.ph <;> rw [hp] at hk <;> cases hk <;> rfl
  · rw [exec_nextSelect_ok hr (instrAt_sel1 hk (selectRegs_eq hk hb ht) hd hx) rfl rfl, hx]
    cases hp : s.ph <;> rw [hp] at hk <;> cases hk <;> rfl
  · rw [exec_nextSelect_ok hr (instrAt_sel2 hk) rfl rfl]
    cases hp : s.ph <;> rw [hp] at hk <;> cases hk <;> rfl
  · rw [exec_cycle_ok hr (instrAt_sel3 hk (selectRegs_eq hk hb ht) hd hx) rfl, hx, afterOk]
    cases hp : s.ph <;> rw [hp] at hk <;> cases hk <;> simp only [State.endSelect, answered_ph, hp, State.goto]
    · rw [afterPrgSel3_eq, answered_bank, answered_dialect]
    · rw [afterVfySel3_eq, answered_dialect]

/-- Settles O22: issuing raises the event, and the `ok` only moves by the latched dialect. -/
theorem eraseTransaction : Obligations.EraseTransaction := by
  unfold Obligations.EraseTransaction
  intro s rd hr hp
  have hi : s.instrAt = some (.erase s.dialect) := by simp only [State.instrAt, hp]
  have hq : s.request = some (.eraseSector s.dialect) := by simp only [State.request, hi]
  rw [exec_ok hr hi hq (by simp), issued_answered, issued_events hi]
  simp [afterOk, afterErase_eq, State.goto, hp, issued, raiseEraseEvent_eq, BusReq.okAnswer]

/-- Settles O24: the phase's row is the page program of the slice at `PRG`, whose `ok` only moves to the lock. -/
theorem pageTransaction : Obligations.PageTransaction := by
  unfold Obligations.PageTransaction
  intro s a bytes rd hr hp ha hs
  have hprg : prgAddr s.cfg = a := BitVec.eq_of_toNat_eq ((prgAddr_toNat s.cfg).trans ha.symm)
  have hi : s.instrAt = some (.pgm a s.dialect) := by simp only [State.instrAt, hp, hprg]
  exact exec_ok hr hi (by simp only [State.request, hi, hs, Option.map_some]) (by simp)

/-- Settles O35: the phase is `State.prgCheck`, whose two conditions are the claim's. -/
theorem programChecks : Obligations.ProgramChecks := by
  unfold Obligations.ProgramChecks
  intro s u h hp
  rw [step_internal h (by simp [hp, rowless])]
  simp only [State.internal, hp, State.prgCheck, bankcountIllegal_iff, capacityExceeded_iff, State.raise, State.goto,
    gt_iff_lt]

/-- Settles O36: the phase is `State.prgHead`, whose conditions are the claim's, and a sector has eight banks. -/
theorem programHead : Obligations.ProgramHead := by
  unfold Obligations.ProgramHead
  intro s u h hp
  rw [step_internal h (by simp [hp, rowless])]
  simp only [State.internal, hp, State.prgHead, imageDone_iff, sectorBad_eq, Config.banksPerSector_eq, State.finish,
    State.raiseEvent, State.goto, BitVec.ofNat_eq_ofNat]

/-- Settles O37: the phases are `State.prgLock`, whose condition is the claim's, and `State.prgNext`. -/
theorem lockAndNext : Obligations.LockAndNext := by
  unfold Obligations.LockAndNext
  intro s u h
  refine ⟨fun hp => ?_, fun hp => ?_⟩ <;> rw [step_internal h (by simp [hp, rowless])]
  · simp only [State.internal, hp, State.prgLock, lockDue_iff, sectorOf_eq, State.enterPpb, State.goto]
  · simp only [State.internal, hp, State.prgNext]

/-- Settles O38: the phase is `State.retry`; where the count becomes 3 it is written as 3. -/
theorem retryDecision : Obligations.RetryDecision := by
  unfold Obligations.RetryDecision
  intro s u h hp
  rw [step_internal h (by simp [hp, rowless])]
  simp only [State.internal, hp, State.retry, nextError_fatal_iff, sectorStart_eq]
  split
  · rename_i h3
    rw [h3, State.raise]
  · rfl

end

/-! The PPB routine: its writes, its status read and its return, one step each. -/

namespace Sys2Proof.Machine

variable {s : State} {i : Instr} {rd : BitVec 16}

/-! ### Transactions answered `ok` -/

/-- The `ok` of a cycle with one successor only moves there (R97). -/
theorem exec_cycle_goto {a : Addr} {d : Byte} {next : Phase} (hr : s.reply = .ok rd) (hi : s.instrAt = some i)
    (hc : i.cycle = some (a, d)) (hn : afterOk i 0 = State.goto next) :
    exec i s = .next { s.answered (.write a d) .ok with ph := next } := by
  rw [exec_cycle_ok hr hi hc, hn, State.goto]

/-- The `ok` of a read carries one byte, which its phase consumes (R123). -/
theorem exec_read_ok (hr : s.reply = .ok rd) (hi : s.instrAt = some (.r s.cfg.st)) :
    exec (.r s.cfg.st) s =
      .next ((s.answered (.read s.cfg.st 1) (.okByte (rd.extractLsb' 0 8))).afterRead rd) := by
  have hq : s.request = some (.read s.cfg.st 1) := by simp only [State.request, hi]
  rw [exec_ok hr hi hq (by simp), BusReq.okAnswer, BitVec.setWidth_eq_extractLsb' (by decide)]
  rfl

/-! ### The byte a read phase consumes -/

theorem afterRead_pollRd1 (h : s.ph = .pollRd1) (x : BitVec 16) :
    s.afterRead x = { s with s1 := x.extractLsb' 0 8, ph := .pollRd2 } := by
  simp only [State.afterRead, State.pollRead, h, BitVec.setWidth_eq_extractLsb' (show 8 ≤ 16 by decide)]

theorem afterRead_pollRd2 (h : s.ph = .pollRd2) (x : BitVec 16) :
    s.afterRead x =
      { s with s2 := x.extractLsb' 0 8, ph := pollDecision s.cfg s.s1 (x.extractLsb' 0 8) } := by
  simp only [State.afterRead, State.pollRead, h, BitVec.setWidth_eq_extractLsb' (show 8 ≤ 16 by decide)]

theorem afterRead_ppbStat (h : s.ph = .ppbStat) (x : BitVec 16) :
    s.afterRead x = s.statusRead (x.extractLsb' 0 8) := by
  simp only [State.afterRead, h, BitVec.setWidth_eq_extractLsb' (show 8 ≤ 16 by decide)]

/-! ### The status check (R211 to R213) -/

theorem statusError_eraseAll (c : Config) (b : Byte) :
    statusError c .eraseAll b = if b.getLsbD 0 = true then none else some .ppbEraseFailed := by
  simp only [statusError, Config.ppbBit_eq]

theorem statusError_writeOne (c : Config) (b : Byte) :
    statusError c .writeOne b = if b.getLsbD 0 = true then some .ppbWriteFailed else none := by
  simp only [statusError, Config.ppbBit_eq]

theorem statusRead_readOne (h : s.ppbop = .readOne) (b : Byte) :
    s.statusRead b = { s with rdata := b, ph := .ppbExit1 } := by
  simp only [State.statusRead, h]

theorem statusRead_passed {b : Byte} (hne : s.ppbop ≠ .readOne) (h : statusError s.cfg s.ppbop b = none) :
    s.statusRead b = { s with sv := b, ph := .ppbExit1 } := by
  unfold State.statusRead
  split
  case h_1 => contradiction
  all_goals simp only [h]

theorem statusRead_failed {b : Byte} {e : Result} (hne : s.ppbop ≠ .readOne)
    (h : statusError s.cfg s.ppbop b = some e) : s.statusRead b = { s with sv := b }.raise e := by
  unfold State.statusRead
  split
  case h_1 => contradiction
  all_goals simp only [h]

end Sys2Proof.Machine

/-! The one-step statements of the family on the PPB commands: each settled from the lemmas above. -/

section
open Sys2Proof Sys2Proof.Machine

/-- Settles O27: each phase issues its cycle, whose `ok` only moves to the next. -/
theorem commandSetEntry : Obligations.CommandSetEntry := by
  unfold Obligations.CommandSetEntry
  intro s rd hr
  refine ⟨fun hp => ?_, fun hp => ?_, fun hp => ?_⟩ <;>
    exact exec_cycle_goto hr (by simp only [State.instrAt, hp]) rfl rfl

/-- Settles O28: the phase and the operation issue the cycle, whose `ok` only moves to the successor. -/
theorem ppbCommandCycles : Obligations.PpbCommandCycles := by
  unfold Obligations.PpbCommandCycles
  intro s rd hr
  refine ⟨fun hp ho => ?_, fun hp ho => ?_, fun hp ho => ?_, fun hp ho => ?_, fun hp ho => ?_, fun hp => ?_,
    fun hp => ?_⟩
  case refine_6 | refine_7 => exact exec_cycle_goto hr (by simp only [State.instrAt, hp]) rfl rfl
  all_goals exact exec_cycle_goto hr (by simp only [State.instrAt, hp, ho]) rfl rfl

/-- Settles O29: both forms of `EX` are the address its two cycles use. -/
theorem commandSetExit : Obligations.CommandSetExit := by
  unfold Obligations.CommandSetExit
  intro s a rd hr ha
  have hex : exitAddr s.cfg = a := by
    rcases ha with ha | ⟨ha, rfl⟩ <;> simp only [exitAddr, ha, Option.getD_some, Option.getD_none]
  refine ⟨fun hp => ?_, fun hp => ?_⟩ <;>
    exact exec_cycle_goto hr (by simp only [State.instrAt, hp, hex]) rfl rfl

/-- Settles O31: the byte is consumed by `State.statusRead`, whose check is bit 0 as the operation needs it. -/
theorem statusCheck : Obligations.StatusCheck := by
  unfold Obligations.StatusCheck
  intro s rd hr hp b u
  have hread : exec (.r s.cfg.st) s = .next (u.statusRead b) := by
    rw [exec_read_ok hr (by simp only [State.instrAt, hp]), afterRead_ppbStat ((answered_ph ..).trans hp)]
  have hop : u.ppbop = s.ppbop := answered_ppbop ..
  rw [hread]
  refine ⟨fun ho => ?_, fun ho hb => ?_, fun ho hb => ?_, fun ho hb => ?_, fun ho hb => ?_⟩ <;> rw [ho] at hop
  · rw [statusRead_readOne hop]
  · rw [statusRead_passed (by simp [hop]) (by rw [hop, statusError_eraseAll, hb]; rfl)]
  · rw [statusRead_failed (by simp [hop]) (by rw [hop, statusError_eraseAll, hb]; rfl), State.raise]
  · rw [statusRead_passed (by simp [hop]) (by rw [hop, statusError_writeOne, hb]; rfl)]
  · rw [statusRead_failed (by simp [hop]) (by rw [hop, statusError_writeOne, hb]; rfl), State.raise]

/-- Settles O39: the phase is `State.ppbRet`. -/
theorem ppbReturn : Obligations.PpbReturn := by
  unfold Obligations.PpbReturn
  intro s u h hp
  rw [step_internal h (by simp [hp, rowless])]
  simp only [State.internal, hp, State.ppbRet, State.finish]

end

/-! Runs of the PPB routine on an environment that answers `ok` throughout: the stretches its three operations share,
and the stretch of each. -/

namespace Sys2Proof.Machine

variable {s t u : State} {i : Instr} {x : BitVec 16} {rest : List Reply}

/-! ### Runs step by step -/

theorem run_trans {m n : Nat} (h : Host.Core.run Sys2Proof.core m s = .next t)
    (h' : Host.Core.run Sys2Proof.core n t = .next u) : Host.Core.run Sys2Proof.core (n + m) s = .next u := by
  induction m generalizing s with
  | zero => cases h; exact h'
  | succ m ih =>
    simp only [Host.Core.run] at h
    split at h
    case h_1 hs =>
      show Host.Core.run Sys2Proof.core (n + m + 1) s = .next u
      simp only [Host.Core.run, hs]
      exact ih h
    all_goals cases h

theorem run_one (h : step s = .next t) : Host.Core.run Sys2Proof.core 1 s = .next t := by
  simp only [Host.Core.run, show Sys2Proof.core.step s = .next t from h]

/-- A row's meaning is one step of the machine where the host has nothing to do (R12, log 6). -/
theorem run_row (hin : s.inbox = []) (hi : s.instrAt = some i) (h : exec i s = .next t) :
    Host.Core.run Sys2Proof.core 1 s = .next t :=
  run_one (by rw [step_runPhase hin, runPhase_row hi, h])

/-! ### Transactions answered by the script -/

/-- `s` in the phase `ph` after the transactions `ts`, oldest first, with `rest` left of the script. -/
def State.after (s : State) (ph : Phase) (ts : List Txn) (rest : List Reply) : State :=
  { s with ph := ph, outstanding := none, script := rest, trace := ts.reverse ++ s.trace }

section after

variable (s : State) (ph : Phase) (ts : List Txn) (rest : List Reply)

@[simp] theorem after_cfg : (s.after ph ts rest).cfg = s.cfg := rfl
@[simp] theorem after_ph : (s.after ph ts rest).ph = ph := rfl
@[simp] theorem after_sect : (s.after ph ts rest).sect = s.sect := rfl
@[simp] theorem after_ppbop : (s.after ph ts rest).ppbop = s.ppbop := rfl
@[simp] theorem after_trace : (s.after ph ts rest).trace = ts.reverse ++ s.trace := rfl

end after

theorem after_after (s : State) (p q : Phase) (ts us : List Txn) (r rest : List Reply) :
    (s.after p ts r).after q us rest = s.after q (ts ++ us) rest := by
  simp only [State.after, List.reverse_append, List.append_assoc]

/-- Two stretches that write no other register are one. -/
theorem run_after {m n : Nat} {p q : Phase} {ts us : List Txn} {r : List Reply}
    (h : Host.Core.run Sys2Proof.core m s = .next (s.after p ts r))
    (h' : Host.Core.run Sys2Proof.core n (s.after p ts r) = .next ((s.after p ts r).after q us rest)) :
    Host.Core.run Sys2Proof.core (n + m) s = .next (s.after q (ts ++ us) rest) := by
  rw [run_trans h h', after_after]

theorem reply_of_script {r : Reply} (h : s.script = r :: rest) : s.reply = r := by
  simp only [State.reply, h]

theorem answered_of_script {r : Reply} (h : s.script = r :: rest) (req : BusReq) (ans : Answer) :
    s.answered req ans = s.after s.ph [⟨req, ans⟩] rest := by
  simp [State.answered, State.after, drawReply_eq, h]

/-- A cycle answered `ok` (R70, R97). -/
theorem run_cycle {p next : Phase} {a : Addr} {d : Byte} (hp : s.ph = p) (hin : s.inbox = [])
    (hs : s.script = .ok x :: rest) (hi : s.instrAt = some i) (hc : i.cycle = some (a, d))
    (hn : ∀ u : State, u.ph = p → afterOk i 0 u = u.goto next) :
    Host.Core.run Sys2Proof.core 1 s = .next (s.after next [⟨.write a d, .ok⟩] rest) := by
  refine run_row hin hi ?_
  rw [exec_cycle_ok (reply_of_script hs) hi hc, hn _ ((answered_ph ..).trans hp), answered_of_script hs]
  rfl

/-- A read answered `ok` (R70, R123). -/
theorem run_read (hin : s.inbox = []) (hs : s.script = .ok x :: rest) (hi : s.instrAt = some (.r s.cfg.st)) :
    Host.Core.run Sys2Proof.core 1 s =
      .next ((s.after s.ph [⟨.read s.cfg.st 1, .okByte (x.extractLsb' 0 8)⟩] rest).afterRead x) := by
  refine run_row hin hi ?_
  rw [exec_read_ok (reply_of_script hs) hi, answered_of_script hs]

/-! ### The stretches the operations share -/

/-- A select phase of the routine translates bank `8 * SECT` (R204). -/
theorem selectRegs_ppb {r : SelectRegs} (hp : s.ph ∈ [.ppbSel0, .ppbSel1, .ppbSel2, .ppbSel3])
    (hr : translateBank s.cfg (BitVec.ofNat 11 (8 * s.sect.toNat)) s.dialect = some r) : s.selectRegs = some r := by
  have hb : s.selectBank = BitVec.ofNat 11 (8 * s.sect.toNat) := by
    simp only [List.mem_cons, List.not_mem_nil, or_false] at hp
    rcases hp with hp | hp | hp | hp <;> simp only [State.selectBank, hp, Config.banksPerSector_eq]
  rw [State.selectRegs, hb, hr]

theorem selectRegs_after {r : SelectRegs} {p : Phase} {ts : List Txn}
    (hp : p ∈ [.ppbSel0, .ppbSel1, .ppbSel2, .ppbSel3])
    (hr : translateBank s.cfg (BitVec.ofNat 11 (8 * s.sect.toNat)) s.dialect = some r) :
    (s.after p ts rest).selectRegs = some r :=
  selectRegs_ppb hp hr

theorem nextSelect_of_ph {p : Phase} (s : State) (h : s.ph = p) : s.nextSelect = s.goto (selSuccessor p) := by
  rw [State.nextSelect, h]

theorem endSelect_ppb (s : State) (h : s.ph = .ppbSel3) : s.endSelect = s.goto .ppbEnt1 := by
  simp only [State.endSelect, h]

/-- The bank select of the routine (R204). -/
theorem run_bankSelect {r : SelectRegs} {x1 x2 x3 x4 : BitVec 16} (hp : s.ph = .ppbSel0) (hin : s.inbox = [])
    (hr : translateBank s.cfg (BitVec.ofNat 11 (8 * s.sect.toNat)) s.dialect = some r)
    (hs : s.script = .ok x1 :: .ok x2 :: .ok x3 :: .ok x4 :: rest) :
    Host.Core.run Sys2Proof.core 4 s = .next (s.after .ppbEnt1
      [⟨.write s.cfg.reg0 r.r0, .ok⟩, ⟨.write s.cfg.reg1 r.r1, .ok⟩, ⟨.write s.cfg.reg2 0x00, .ok⟩,
       ⟨.write s.cfg.reg3 r.r3, .ok⟩] rest) := by
  obtain ⟨⟨d0, hd0, hx0⟩, ⟨d1, hd1, hx1⟩, -, ⟨d3, hd3, hx3⟩⟩ := translateBank_patterns hr
  rw [← hx0, ← hx1, ← hx3]
  have h0 := run_cycle hp hin hs (instrAt_sel0 (by rw [hp]; rfl) (selectRegs_ppb (by simp [hp]) hr) hd0 hx0)
    rfl nextSelect_of_ph
  have h1 := run_after h0 (run_cycle (p := .ppbSel1) rfl hin rfl
    (instrAt_sel1 rfl (selectRegs_after (by decide) hr) hd1 hx1) rfl nextSelect_of_ph)
  have h2 := run_after h1 (run_cycle (p := .ppbSel2) rfl hin rfl (instrAt_sel2 rfl) rfl nextSelect_of_ph)
  exact run_after h2 (run_cycle (p := .ppbSel3) rfl hin rfl
    (instrAt_sel3 rfl (selectRegs_after (by decide) hr) hd3 hx3) rfl endSelect_ppb)

/-- The command-set entry (R205). -/
theorem run_entry {x1 x2 x3 : BitVec 16} (hp : s.ph = .ppbEnt1) (hin : s.inbox = [])
    (hs : s.script = .ok x1 :: .ok x2 :: .ok x3 :: rest) :
    Host.Core.run Sys2Proof.core 3 s = .next (s.after .ppbCmd1
      [⟨.write 0x8AAA 0xAA, .ok⟩, ⟨.write 0x8555 0x55, .ok⟩, ⟨.write 0x8AAA 0xC0, .ok⟩] rest) := by
  have h1 := run_cycle (i := .ent1) hp hin hs (by simp only [State.instrAt, hp]) rfl fun _ _ => rfl
  have h2 := run_after h1 (run_cycle (i := .ent2) rfl hin rfl rfl rfl fun _ _ => rfl)
  exact run_after h2 (run_cycle (i := .ent3) rfl hin rfl rfl rfl fun _ _ => rfl)

/-- The command-set exit (R214). -/
theorem run_exit {x1 x2 : BitVec 16} (hp : s.ph = .ppbExit1) (hin : s.inbox = [])
    (hs : s.script = .ok x1 :: .ok x2 :: rest) :
    Host.Core.run Sys2Proof.core 2 s = .next (s.after .ppbRet
      [⟨.write (s.cfg.ex.getD s.cfg.st) 0x90, .ok⟩, ⟨.write (s.cfg.ex.getD s.cfg.st) 0x00, .ok⟩] rest) := by
  have h1 := run_cycle (i := .exit1 (exitAddr s.cfg)) hp hin hs (by simp only [State.instrAt, hp]) rfl fun _ _ => rfl
  exact run_after h1 (run_cycle (i := .exit2 (exitAddr s.cfg)) rfl hin rfl rfl rfl fun _ _ => rfl)

theorem run_pollRd1 (hp : s.ph = .pollRd1) (hin : s.inbox = []) (hs : s.script = .ok x :: rest) :
    Host.Core.run Sys2Proof.core 1 s = .next ({ s with s1 := x.extractLsb' 0 8 }.after .pollRd2
      [⟨.read s.cfg.st 1, .okByte (x.extractLsb' 0 8)⟩] rest) := by
  rw [run_read hin hs (by simp only [State.instrAt, hp]), afterRead_pollRd1 (by simp [hp])]
  rfl

theorem run_pollRd2_stable (hp : s.ph = .pollRd2) (hin : s.inbox = []) (hs : s.script = .ok x :: rest)
    (hx : s.s1.getLsbD 6 = x.getLsbD 6) :
    Host.Core.run Sys2Proof.core 1 s = .next ({ s with s2 := x.extractLsb' 0 8 }.after .pollSettle
      [⟨.read s.cfg.st 1, .okByte (x.extractLsb' 0 8)⟩] rest) := by
  have hstable : pollDecision s.cfg s.s1 (x.extractLsb' 0 8) = .pollSettle := by
    rw [pollDecision_eq, if_pos (by simpa [BitVec.getLsbD_extractLsb'] using hx)]
  rw [run_read hin hs (by simp only [State.instrAt, hp]), afterRead_pollRd2 (by simp [hp])]
  simp only [State.after, hstable]

/-- A poll whose first pair is stable, up to the status read (R232 to R234, R240). -/
theorem run_stablePoll {x1 x2 : BitVec 16} (hp : s.ph = .pollRd1) (hin : s.inbox = [])
    (hs : s.script = .ok x1 :: .ok x2 :: rest) (hx : x1.getLsbD 6 = x2.getLsbD 6) :
    Host.Core.run Sys2Proof.core 3 s = .next
      ({ s with s1 := x1.extractLsb' 0 8, s2 := x2.extractLsb' 0 8 }.after .ppbStat
        [⟨.read s.cfg.st 1, .okByte (x1.extractLsb' 0 8)⟩, ⟨.read s.cfg.st 1, .okByte (x2.extractLsb' 0 8)⟩]
        rest) := by
  have hx1 : (x1.extractLsb' 0 8).getLsbD 6 = x2.getLsbD 6 := by simpa [BitVec.getLsbD_extractLsb'] using hx
  have h2 := run_trans (run_pollRd1 hp hin hs) (run_pollRd2_stable rfl hin rfl hx1)
  exact run_trans h2 (run_row (i := .poll) hin rfl rfl)

/-- A status read whose check passes, and the exit (R211, R212, R214). -/
theorem run_passedCheck {x1 x2 x3 : BitVec 16} (hp : s.ph = .ppbStat) (hin : s.inbox = [])
    (hs : s.script = .ok x1 :: .ok x2 :: .ok x3 :: rest) (hne : s.ppbop ≠ .readOne)
    (hx : statusError s.cfg s.ppbop (x1.extractLsb' 0 8) = none) :
    Host.Core.run Sys2Proof.core 3 s = .next
      ({ s with sv := x1.extractLsb' 0 8 }.after .ppbRet
        [⟨.read s.cfg.st 1, .okByte (x1.extractLsb' 0 8)⟩, ⟨.write (s.cfg.ex.getD s.cfg.st) 0x90, .ok⟩,
         ⟨.write (s.cfg.ex.getD s.cfg.st) 0x00, .ok⟩] rest) := by
  have h1 := run_read hin hs (by simp only [State.instrAt, hp])
  rw [afterRead_ppbStat (by simp [hp]), statusRead_passed (by simp [hne]) (by simpa using hx)] at h1
  exact run_trans h1 (run_exit rfl hin rfl)

/-! ### The stretch of each operation -/

/-- The command cycles of erase-all (R207). -/
theorem run_eraseAllCycles {x1 x2 : BitVec 16} (hp : s.ph = .ppbCmd1) (ho : s.ppbop = .eraseAll)
    (hin : s.inbox = []) (hs : s.script = .ok x1 :: .ok x2 :: rest) :
    Host.Core.run Sys2Proof.core 2 s = .next (s.after .pollRd1
      [⟨.write s.cfg.st 0x80, .ok⟩, ⟨.write s.cfg.st 0x30, .ok⟩] rest) := by
  have h1 := run_cycle (i := .ppbe1 s.cfg.st) hp hin hs (by simp only [State.instrAt, hp, ho]) rfl fun _ _ => rfl
  exact run_after h1 (run_cycle (i := .ppbe2 s.cfg.st) rfl hin rfl
    (by simp only [State.instrAt, after_ph, after_ppbop, after_cfg, ho]) rfl fun _ _ => rfl)

/-- The command cycles of write-one and the sector bytes (R208, R210). -/
theorem run_writeOneCycles {x1 x2 x3 x4 : BitVec 16} (hp : s.ph = .ppbCmd1) (ho : s.ppbop = .writeOne)
    (hin : s.inbox = []) (hs : s.script = .ok x1 :: .ok x2 :: .ok x3 :: .ok x4 :: rest) :
    Host.Core.run Sys2Proof.core 4 s = .next (s.after .pollRd1
      [⟨.write s.cfg.st 0xA0, .ok⟩, ⟨.write s.cfg.st 0x00, .ok⟩, ⟨.write s.cfg.slo s.sect, .ok⟩,
       ⟨.write s.cfg.shi 0x00, .ok⟩] rest) := by
  have h1 := run_cycle (i := .ppbw1 s.cfg.st) hp hin hs (by simp only [State.instrAt, hp, ho]) rfl fun _ _ => rfl
  have h2 := run_after h1 (run_cycle (i := .ppbw2 s.cfg.st) rfl hin rfl
    (by simp only [State.instrAt, after_ph, after_ppbop, after_cfg, ho]) rfl fun _ _ => rfl)
  have h3 := run_after h2 (run_cycle (i := .seclo s.cfg.slo s.sect) rfl hin rfl rfl rfl fun _ _ => rfl)
  exact run_after h3 (run_cycle (i := .sechi s.cfg.shi) rfl hin rfl rfl rfl fun _ _ => rfl)

/-- The command cycle of read-one, the status read and the exit (R209, R211, R213). -/
theorem run_readOneCycles {x1 x2 x3 x4 : BitVec 16} (hp : s.ph = .ppbCmd1) (ho : s.ppbop = .readOne)
    (hin : s.inbox = []) (hs : s.script = .ok x1 :: .ok x2 :: .ok x3 :: .ok x4 :: rest) :
    Host.Core.run Sys2Proof.core 4 s = .next ({ s with rdata := x2.extractLsb' 0 8 }.after .ppbRet
      [⟨.write s.cfg.st 0xC0, .ok⟩, ⟨.read s.cfg.st 1, .okByte (x2.extractLsb' 0 8)⟩,
       ⟨.write (s.cfg.ex.getD s.cfg.st) 0x90, .ok⟩, ⟨.write (s.cfg.ex.getD s.cfg.st) 0x00, .ok⟩] rest) := by
  have h1 := run_cycle (i := .ppbr1 s.cfg.st) hp hin hs (by simp only [State.instrAt, hp, ho]) rfl fun _ _ => rfl
  have h2 := run_trans h1 (run_read hin rfl rfl)
  rw [afterRead_ppbStat (by simp), statusRead_readOne (by simp [ho])] at h2
  exact run_trans h2 (run_exit rfl hin rfl)

end Sys2Proof.Machine

/-! The statements of the family about whole PPB routines: each put together from its stretches. -/

section
open Sys2Proof Sys2Proof.Machine

/-- Settles O58: the select and the entry, write-one's cycles, the poll, and the check that passes on a clear bit 0. -/
theorem writeOneRoutine : Obligations.WriteOneRoutine := by
  unfold Obligations.WriteOneRoutine
  intro s r x1 x2 x3 x4 x5 x6 x7 x8 x9 x10 x11 x12 x13 x14 x15 x16 rest hp ho hin hr hpair hbit hs b1 b2 b3
  have hb : b3.getLsbD 0 = false := by rw [BitVec.getLsbD_extractLsb']; exact hbit
  have hcheck : statusError s.cfg s.ppbop b3 = none := by rw [ho, statusError_writeOne, hb]; rfl
  have h7 := run_after (run_bankSelect hp hin hr hs) (run_entry rfl hin rfl)
  have h11 := run_after h7 (run_writeOneCycles rfl ho hin rfl)
  have h14 := run_trans h11 (run_stablePoll rfl hin rfl hpair)
  refine ⟨_, run_trans h14 (run_passedCheck rfl hin rfl (by simp [ho]) hcheck), rfl, ?_⟩
  simp [b1, b2, b3]

/-- Settles O59: the select and the entry, erase-all's cycles, the poll, and the check that passes on a set bit 0. -/
theorem eraseAllRoutine : Obligations.EraseAllRoutine := by
  unfold Obligations.EraseAllRoutine
  intro s r x1 x2 x3 x4 x5 x6 x7 x8 x9 x10 x11 x12 x13 x14 rest hp ho hsect hin hr hpair hbit hs b1 b2 b3
  have hb : b3.getLsbD 0 = true := by rw [BitVec.getLsbD_extractLsb']; exact hbit
  have hcheck : statusError s.cfg s.ppbop b3 = none := by rw [ho, statusError_eraseAll, hb]; rfl
  have h7 := run_after (run_bankSelect hp hin (by rw [hsect]; exact hr) hs) (run_entry rfl hin rfl)
  have h9 := run_after h7 (run_eraseAllCycles rfl ho hin rfl)
  have h12 := run_trans h9 (run_stablePoll rfl hin rfl hpair)
  refine ⟨_, run_trans h12 (run_passedCheck rfl hin rfl (by simp [ho]) hcheck), rfl, ?_⟩
  simp [b1, b2, b3]

/-- Settles O57: the word is accepted (R40, R203), the routine of read-one runs, and `PPB_RET` ends the command. -/
theorem ppbReadCommand : Obligations.PpbReadCommand := by
  unfold Obligations.PpbReadCommand
  intro s d v sec r x1 x2 x3 x4 x5 x6 x7 x8 x9 x10 x11 rest hp hb hd hr hin hs b
  obtain ⟨hword, -⟩ := stepRunsInstruction
  obtain ⟨haccept, -⟩ := commandAcceptance
  obtain ⟨-, -, hread, -⟩ := haccept { s with inbox := [] } d v sec hb hd
  have h1 := run_one ((hword s (.ppbRead d v sec) _ [] rfl rfl hin).trans hread)
  have h8 := run_trans h1 (run_after (run_bankSelect rfl rfl hr hs) (run_entry rfl rfl rfl))
  have h12 := run_trans h8 (run_readOneCycles rfl rfl rfl rfl)
  have h13 := run_trans h12 (run_one (ppbReturn _ _ (.inl ⟨rfl, rfl⟩) rfl))
  rw [if_neg (by simp [State.after])] at h13
  refine ⟨_, h13, rfl, ?_⟩
  simp [b]

end

/-! The toggle-bit poll: its follow-up pair, its two delays, its row, and a pair that keeps it polling. -/

namespace Sys2Proof.Machine

variable {s : State} {rest : List Reply}

/-! ### The byte a follow-up read consumes -/

theorem afterRead_pollRd3 (h : s.ph = .pollRd3) (x : BitVec 16) :
    s.afterRead x = { s with s1 := x.extractLsb' 0 8, ph := .pollRd4 } := by
  simp only [State.afterRead, State.pollRead, h, BitVec.setWidth_eq_extractLsb' (show 8 ≤ 16 by decide)]

/-- The follow-up pair ends the poll or the command (R239): there is one (R337). -/
theorem afterRead_pollRd4 (h : s.ph = .pollRd4) (x : BitVec 16) :
    s.afterRead x =
      if s.s1.getLsbD 6 = (x.extractLsb' 0 8).getLsbD 6 then { s with s2 := x.extractLsb' 0 8, ph := .pollSettle }
      else { s with s2 := x.extractLsb' 0 8 }.raise .ppbTimeout := by
  simp only [State.afterRead, State.pollRead, h, BitVec.setWidth_eq_extractLsb' (show 8 ≤ 16 by decide),
    dq6Toggled_iff, Config.followUpPairs_eq, Nat.le_refl, if_true, ite_not]

/-! ### The row `POLL` -/

theorem exec_poll_pollSleep (h : s.ph = .pollSleep) : exec .poll s = .next (s.goto .pollRd1) := by
  simp only [exec, execPoll, h, sleep_eq]

theorem exec_poll_pollSettle (h : s.ph = .pollSettle) : exec .poll s = .next (s.goto .ppbStat) := by
  simp only [exec, execPoll, h, sleep_eq]

/-- In a read phase the row is that phase's read (R230). -/
theorem exec_poll_read (h : s.ph ∈ [.pollRd1, .pollRd2, .pollRd3, .pollRd4]) :
    exec .poll s = exec (.r s.cfg.st) s := by
  simp only [List.mem_cons, List.not_mem_nil, or_false] at h
  rcases h with h | h | h | h <;> simp only [exec, execPoll, h]

/-! ### A pair that toggles with DQ5 of the first read clear -/

theorem run_pollRd2_toggling {x : BitVec 16} (hp : s.ph = .pollRd2) (hin : s.inbox = [])
    (hs : s.script = .ok x :: rest) (hx : s.s1.getLsbD 6 ≠ x.getLsbD 6) (h5 : s.s1.getLsbD 5 = false) :
    Host.Core.run Sys2Proof.core 1 s = .next ({ s with s2 := x.extractLsb' 0 8 }.after .pollSleep
      [⟨.read s.cfg.st 1, .okByte (x.extractLsb' 0 8)⟩] rest) := by
  have hsleep : pollDecision s.cfg s.s1 (x.extractLsb' 0 8) = .pollSleep := by
    rw [pollDecision_eq, if_neg (by simpa [BitVec.getLsbD_extractLsb'] using hx), if_pos h5]
  rw [run_read hin hs (by simp only [State.instrAt, hp]), afterRead_pollRd2 (by simp [hp])]
  simp only [State.after, hsleep]

/-- Such a pair brings the poll back to its first read (R233 to R236). -/
theorem run_togglingPair {x1 x2 : BitVec 16} (hp : s.ph = .pollRd1) (hin : s.inbox = [])
    (hs : s.script = .ok x1 :: .ok x2 :: rest) (h6 : x1.getLsbD 6 ≠ x2.getLsbD 6) (h5 : x1.getLsbD 5 = false) :
    Host.Core.run Sys2Proof.core 3 s = .next
      ({ s with s1 := x1.extractLsb' 0 8, s2 := x2.extractLsb' 0 8 }.after .pollRd1
        [⟨.read s.cfg.st 1, .okByte (x1.extractLsb' 0 8)⟩, ⟨.read s.cfg.st 1, .okByte (x2.extractLsb' 0 8)⟩]
        rest) := by
  have h6' : (x1.extractLsb' 0 8).getLsbD 6 ≠ x2.getLsbD 6 := by simpa [BitVec.getLsbD_extractLsb'] using h6
  have h5' : (x1.extractLsb' 0 8).getLsbD 5 = false := by simpa [BitVec.getLsbD_extractLsb'] using h5
  have h2 := run_trans (run_pollRd1 hp hin hs) (run_pollRd2_toggling rfl hin rfl h6' h5')
  exact run_trans h2 (run_row (i := .poll) hin rfl (exec_poll_pollSleep rfl))

/-- After such a pair the block polls on, busy as before (R242). -/
theorem togglingPair_keeps_polling {x1 x2 : BitVec 16} (hp : s.ph = .pollRd1) (hin : s.inbox = [])
    (hs : s.script = .ok x1 :: .ok x2 :: rest) (h6 : x1.getLsbD 6 ≠ x2.getLsbD 6) (h5 : x1.getLsbD 5 = false) :
    ∃ t, Host.Core.run Sys2Proof.core 3 s = .next t ∧ t.ph = .pollRd1 ∧ t.inbox = [] ∧ t.busy = s.busy ∧
      t.script = rest ∧ t.trace.length = s.trace.length + 2 :=
  ⟨_, run_togglingPair hp hin hs h6 h5, rfl, hin, rfl, rfl, rfl⟩

end Sys2Proof.Machine

/-! The statements of the family on the poll: each settled from the lemmas above. -/

section
open Sys2Proof Sys2Proof.Machine

/-- Settles O32: each read phase consumes the byte by its `State.afterRead`, where the second read of a pair decides. -/
theorem pollReads : Obligations.PollReads := by
  unfold Obligations.PollReads
  intro s rd hr b u
  have hph : u.ph = s.ph := answered_ph ..
  have hs1 : u.s1 = s.s1 := answered_s1 ..
  have hread (hi : s.instrAt = some (.r s.cfg.st)) : exec (.r s.cfg.st) s = .next (u.afterRead rd) :=
    exec_read_ok hr hi
  refine ⟨fun hp => ?_, fun hp => ?_, fun hp => ?_, fun hp hb => ?_, fun hp hb => ?_⟩ <;>
    rw [hread (by simp only [State.instrAt, hp])] <;> rw [hp] at hph
  · rw [afterRead_pollRd1 hph]
  · rw [afterRead_pollRd2 hph, pollDecision_eq, hs1]
  · rw [afterRead_pollRd3 hph]
  · rw [afterRead_pollRd4 hph, hs1, if_pos hb]
  · rw [afterRead_pollRd4 hph, hs1, if_neg hb, State.raise]

/-- Settles O33: a delay only moves on, and a read phase's row is its read, which is one transaction. -/
theorem pollRow : Obligations.PollRow := by
  unfold Obligations.PollRow
  intro s
  refine ⟨exec_poll_pollSleep, exec_poll_pollSettle, fun hp => ?_⟩
  have hi : s.instrAt = some (.r s.cfg.st) := by
    simp only [List.mem_cons, List.not_mem_nil, or_false] at hp
    rcases hp with hp | hp | hp | hp <;> simp only [State.instrAt, hp]
  have hq : s.request = some (.read s.cfg.st 1) := by simp only [State.request, hi]
  have hread := exec_transact hi hq (by simp)
  exact ⟨_, (exec_poll_read hp).trans hread, hread⟩

/-- Settles O56, by induction on the pairs: each brings the poll back to its first read with two reads more in the
history. -/
theorem pollUnbounded : Obligations.PollUnbounded := by
  unfold Obligations.PollUnbounded
  intro pairs rest
  induction pairs with
  | nil =>
    intro s hp _ _ hs
    exact ⟨s, rfl, hp, rfl, hs, rfl⟩
  | cons p pairs ih =>
    intro s hp hin htoggle hs
    obtain ⟨⟨h6, h5⟩, htoggle⟩ := List.forall_mem_cons.mp htoggle
    obtain ⟨u, hpair, hup, huin, hubusy, huscript, hutrace⟩ :=
      togglingPair_keeps_polling hp hin hs (by simpa using h6) (by simpa using h5)
    obtain ⟨t, hrun, htp, htbusy, htscript, httrace⟩ := ih u hup huin htoggle huscript
    refine ⟨t, run_trans hpair hrun, htp, htbusy.trans hubusy, htscript, ?_⟩
    rw [httrace, hutrace, List.length_cons]
    omega

end

/-! The CRC-16: one shift loses nothing, so one byte and any sequence of bytes lose nothing of the running CRC. -/

namespace Sys2Proof.Machine

variable (k : Config)

/-! ### One shift -/

/-- The polynomial has bit 15 and the shifted CRC has not, so the bit shifted out comes back there. -/
theorem crcShift_getLsbD_top (c : BitVec 16) : (crcShift k c).getLsbD 15 = c.getLsbD 0 := by
  rw [crcShift_eq]
  cases h : c.getLsbD 0 <;> simp

/-- The bit shifted out is bit 15 of the result, and with it the other bits are had back. -/
theorem crcShift_injective : Function.Injective (crcShift k) := by
  intro c d h
  have low : c.getLsbD 0 = d.getLsbD 0 := by rw [← crcShift_getLsbD_top k, h, crcShift_getLsbD_top]
  have high : c >>> 1 = d >>> 1 := by
    rw [crcShift_eq, crcShift_eq, low] at h
    split at h
    · exact (BitVec.xor_left_inj _).mp h
    · exact h
  refine BitVec.eq_of_getLsbD_eq fun i _ => ?_
  cases i with
  | zero => exact low
  | succ i => simpa [BitVec.getLsbD_ushiftRight, Nat.add_comm] using congrArg (BitVec.getLsbD · i) high

/-! ### One byte -/

theorem crcByte_crc_injective (d : Byte) : Function.Injective (crcByte k · d) := fun _ _ h =>
  (BitVec.xor_left_inj _).mp ((crcShift_injective k).iterate 8 h)

theorem crcByte_byte_injective (c : BitVec 16) : Function.Injective (crcByte k c) := fun x y h => by
  have hxy : x.setWidth 16 = y.setWidth 16 := (BitVec.xor_right_inj _).mp ((crcShift_injective k).iterate 8 h)
  simpa using congrArg (BitVec.setWidth 8) hxy

/-- A zero byte leaves the running CRC 0. -/
theorem crcByte_zero_zero : crcByte k 0 0 = 0 :=
  Function.iterate_fixed (by simp [crcShift_eq]) 8

/-! ### A sequence -/

theorem crc16_eq (bytes : List Byte) : crc16 k bytes = crcFrom k 0 bytes := by
  rw [crc16, Config.crcInit_eq]

theorem crcFrom_append (c : BitVec 16) (before after : List Byte) :
    crcFrom k c (before ++ after) = crcFrom k (crcFrom k c before) after := by
  induction before generalizing c with
  | nil => rfl
  | cons d ds ih => exact ih (crcByte k c d)

theorem crcFrom_injective (bytes : List Byte) : Function.Injective (crcFrom k · bytes) := by
  induction bytes with
  | nil => exact Function.injective_id
  | cons d ds ih => exact ih.comp (crcByte_crc_injective k d)

theorem crcFrom_zero_replicate (n : Nat) : crcFrom k 0 (List.replicate n 0) = 0 := by
  induction n with
  | zero => rfl
  | succ n ih => rw [List.replicate_succ, crcFrom, crcByte_zero_zero, ih]

end Sys2Proof.Machine

/-! The verify pass: its comparison, and its row in each of its phases. -/

namespace Sys2Proof.Machine

variable {s : State} {i : Instr}

/-! ### The comparison (R258) -/

theorem vfyCompare_equal {act : BitVec 16} (h : s.mmExp = act) :
    s.vfyCompare act = { s with mmAct := act, ph := .vfyNext } :=
  if_pos h

theorem vfyCompare_different {act : BitVec 16} (h : s.mmExp ≠ act) :
    s.vfyCompare act =
      { s with
        mmAct := act, mmBank := s.bank.extractLsb' 0 11
        result := .verificationMismatch, ppbop := .none, busy := false, done := true, ph := .idle } := by
  rw [← BitVec.setWidth_eq_extractLsb' (show 11 ≤ 12 by decide)]
  exact if_neg h

/-- An `ok` answer to the CRC is compared with the slice's CRC, which issuing the row has written (R257). -/
theorem exec_crc_ok {a : Addr} {bytes : List Byte} {rd : BitVec 16} (hr : s.reply = .ok rd) (hp : s.ph = .vfyCrc)
    (ha : a.toNat = s.cfg.prg.val) (hs : s.slice = some bytes) :
    exec (.crc a) s = .next
      ({ s.answered (.readCrc16 a 0x4000) (.okCrc rd) with mmExp := crc16 s.cfg bytes }.vfyCompare rd) := by
  have hprg : prgAddr s.cfg = a := BitVec.eq_of_toNat_eq ((prgAddr_toNat s.cfg).trans ha.symm)
  have hi : s.instrAt = some (.crc a) := by simp only [State.instrAt, hp, hprg]
  have hq : s.request = some (.readCrc16 a 0x4000) := by
    simp only [State.request, hi, hs, Option.map_some, Config.bankBytes_eq, BitVec.ofNat_eq_ofNat]
  rw [exec_ok hr hi hq (by simp), issued_answered, issued_events hi, if_neg (by simp [hp])]
  simp [afterOk, issued, hs, BusReq.okAnswer]

/-! ### The row `VERIFY.PASS` -/

/-- The phases of the verify pass: the reset, the two internal ones, the CRC, and the writes of the select. -/
theorem verify_phase {p : Phase} (h : p.routine = 2) :
    p = .vfyReset ∨ (p = .vfyHead ∨ p = .vfyNext) ∨ p = .vfyCrc ∨
      p ∈ [.vfySel0, .vfySel1, .vfySel2, .vfySel3, .vfyHs1, .vfyHs2] := by
  revert h; cases p <;> decide

theorem runCycle_eq_exec {p : Addr × Byte} (hc : i.cycle = some p) (s : State) : runCycle i s = exec i s := by
  cases i <;> cases hc <;> rfl

/-- A select phase of the verify pass issues a bus command cycle, which the row runs (R255, R256). -/
theorem exec_verifyPass_select (hp : s.ph ∈ [.vfySel0, .vfySel1, .vfySel2, .vfySel3, .vfyHs1, .vfyHs2])
    (hi : s.instrAt = some i) : exec .verifyPass s = exec i s := by
  have hrun : exec .verifyPass s = runCycle i s := by
    simp only [List.mem_cons, List.not_mem_nil, or_false] at hp
    rcases hp with hp | hp | hp | hp | hp | hp <;> simp only [exec, execVerifyPass, hp, hi]
  cases instrAt_issues hi with
  | cycle hc _ => rw [hrun, runCycle_eq_exec hc]
  | rst h => rcases h with h | h | h <;> simp [h] at hp
  | r h => rcases h with h | h | h | h | h <;> simp [h] at hp
  | poll h | verifyPass h => rcases h with h | h <;> simp [h] at hp
  | erase h | pgm h | crc h => simp [h] at hp

end Sys2Proof.Machine

/-! The statements of the family on the CRC and the verify pass: each settled from the lemmas above. -/

section
open Sys2Proof Sys2Proof.Machine

/-- Settles O17: the running CRC after the bytes before is injective in the changed byte, and what follows keeps the
difference; a leading zero byte leaves the initial 0. -/
theorem crcDetectsOneByte : Obligations.CrcDetectsOneByte := by
  unfold Obligations.CrcDetectsOneByte
  refine fun k => ⟨fun before after x y hxy h => hxy ?_, fun n bytes => ?_⟩
  · rw [crc16_eq, crc16_eq, crcFrom_append, crcFrom_append] at h
    exact crcByte_byte_injective k _ (crcFrom_injective k after h)
  · rw [crc16_eq, crc16_eq, crcFrom_append, crcFrom_zero_replicate]

/-- Settles O16: the shift of the claim is `crcShift` with the polynomial's value in it. -/
theorem crcByteByByte : Obligations.CrcByteByByte := by
  unfold Obligations.CrcByteByByte
  refine fun k => ⟨crc16_eq k [], fun c => rfl, fun c d ds => rfl, fun c d => ?_, crc16_eq k⟩
  intro shift
  have hshift : crcShift k = shift := funext (crcShift_eq k)
  rw [← hshift]
  rfl

/-- Settles O26: the answer is compared with the slice's CRC, and the mismatch is taken like any error. -/
theorem crcTransaction : Obligations.CrcTransaction := by
  unfold Obligations.CrcTransaction
  intro s a bytes rd hr hp ha hs
  refine ⟨fun heq => ?_, fun hne => ?_⟩ <;> rw [exec_crc_ok hr hp ha hs]
  · rw [vfyCompare_equal heq, heq]
  · rw [vfyCompare_different hne]
    simp only [answered_bank]

/-- Settles O34: the internal phases are `State.vfyHead` and `State.vfyNext`, and any other phase names a row of its
own, which the sub-sequence runs. -/
theorem verifyPassRow : Obligations.VerifyPassRow := by
  unfold Obligations.VerifyPassRow
  intro s
  refine ⟨fun hp => ?_, fun hp => ?_, fun i h2 hi => ?_⟩
  · simp only [exec, execVerifyPass, hp, State.vfyHead, imageDone_iff, sectorBad_eq, Config.banksPerSector_eq,
      State.finishVerify, State.finish, State.raiseEvent, State.goto, BitVec.ofNat_eq_ofNat]
  · simp only [exec, execVerifyPass, hp, State.vfyNext]
  · rcases verify_phase h2 with hp | hp | hp | hp
    · have he : i = .rst := by simpa [State.instrAt, hp] using hi.symm
      simp only [he, exec, execVerifyPass, hp]
    · have he : i = .verifyPass := by rcases hp with hp | hp <;> simpa [State.instrAt, hp] using hi.symm
      rw [he]
    · have he : i = .crc (prgAddr s.cfg) := by simpa [State.instrAt, hp] using hi.symm
      simp only [he, exec, execVerifyPass, hp]
    · exact exec_verifyPass_select hp hi

end

/-! The failure dispatch of a transaction, and the abort. -/

namespace Sys2Proof.Machine

variable {s : State} {i : Instr} {req : BusReq}

/-- A `fail` answer to the request of a row other than `RST` is consumed by the failure dispatch (R70, R283). -/
theorem exec_failed (hf : s.reply = .fail) (hi : s.instrAt = some i) (hq : s.request = some req) (hr : i ≠ .rst) :
    exec i s = .next ((issued i s).answered req .fail).failDispatch := by
  rw [exec_transact hi hq hr, transact_fail ((issued_reply i s).trans hf)]

/-- The transactions of the verify pass other than `RST` are those of its select phases and `VFY_CRC` (R255 to R257):
its internal phases send nothing. -/
theorem verify_phase_of_request (hi : s.instrAt = some i) (hq : s.request = some req) (hr : i ≠ .rst)
    (h2 : s.ph.routine = 2) : s.ph ∈ [.vfySel0, .vfySel1, .vfySel2, .vfySel3, .vfyHs1, .vfyHs2, .vfyCrc] := by
  rcases verify_phase h2 with hp | hp | hp | hp
  · exact absurd (by simpa [State.instrAt, hp] using hi.symm) hr
  · rcases hp with hp | hp <;> simp [State.request, State.instrAt, hp, Instr.cycle] at hq
  · simp [hp]
  · exact List.mem_append_left [.vfyCrc] hp

/-- The failure dispatch of a phase that sends a request, by routine and `OP` (R283). -/
theorem failDispatch_eq
    (h : s.ph.routine = 2 → s.ph ∈ [.vfySel0, .vfySel1, .vfySel2, .vfySel3, .vfyHs1, .vfyHs2, .vfyCrc]) :
    s.failDispatch =
      if s.ph.routine ≠ 2 ∧ s.op = .program then s.goto .prgRetry else s.raise .busOperationFailed := by
  split
  next hd => exact failDispatch_retry hd.2 hd.1
  next hd =>
    rcases not_and_or.mp hd with h2 | ho
    · exact failDispatch_verify (h (not_not.mp h2))
    · exact failDispatch_standalone ho

end Sys2Proof.Machine

/-! The statements of the family on exceptions: each settled from the lemmas above. -/

section
open Sys2Proof Sys2Proof.Machine

/-- Settles O40: the failed row reaches the dispatch with only what issuing it writes changed, and in the verify pass
only the phases which the dispatch names send a request. -/
theorem failureDispatch : Obligations.FailureDispatch := by
  unfold Obligations.FailureDispatch
  intro s i req hf hi hr hq
  refine ⟨(issued i s).mmExp, issued_mmExp hi, ?_⟩
  rw [exec_failed hf hi hq hr, issued_answered, issued_events hi, failDispatch_eq]
  · simp only [answered_ph, answered_op, State.goto, State.raise]
  · simpa only [answered_ph] using verify_phase_of_request hi hq hr

/-- Settles O42: the abort is `State.raise`, and the mismatch keeps the low 11 bits of `BANK` before it. -/
theorem abortFrame : Obligations.AbortFrame := by
  unfold Obligations.AbortFrame
  refine ⟨fun s e => rfl, fun s => ?_⟩
  rw [State.raiseMismatch, State.raise, BitVec.setWidth_eq_extractLsb' (by decide)]

end

/-! What the configuration and the image do not give, and a hardware reset. -/

namespace Sys2Proof.Machine

variable {s : State}

/-- R323: a command is refused where its dialect is not configured. -/
theorem accept_unconfigured (hb : s.busy = false) {d : Dialect} (hd : s.dialectConfigured d = false) (op : Op)
    (v : Bool) (sec : BitVec 8) (first : State → State) :
    s.accept op d v sec first = .refused .scrambledNotConfigured := by
  simp only [State.accept, hb, hd, Bool.false_eq_true, if_false]

/-- R144: without its functions the scrambled dialect has no select bytes. -/
theorem translateBank_unconfigured {k : Config} (hk : k.scr = none) (b : BitVec 11) :
    translateBank k b .scrambled = none := by
  simp only [translateBank, hk, Option.map_none]

/-- R321: the row that would read an unwritten byte is refused in the phase that issues it. -/
theorem exec_unwritten {i : Instr} (hi : s.instrAt = some i) (hp : s.ph = .prgPage ∨ s.ph = .vfyCrc)
    (hs : s.slice = none) : exec i s = .refused .imageByteUnwritten := by
  obtain ⟨hready, -⟩ | ⟨-, h⟩ := exec_issued_outcome hi
  · exact absurd hs (hready hp)
  · exact h

end Sys2Proof.Machine

/-! The statements of the family on reset and hazards: each settled from the lemmas above. -/

section
open Sys2Proof Sys2Proof.Machine

/-- Settles O4: the four commands share one acceptance, and `translate` has no value to answer. -/
theorem scrambledUnconfiguredRefused : Obligations.ScrambledUnconfiguredRefused := by
  unfold Obligations.ScrambledUnconfiguredRefused
  intro s v sec b hk
  have hd : s.dialectConfigured .scrambled = false := by simp only [State.dialectConfigured, hk, Option.isSome_none]
  refine ⟨fun hb i hi => ?_, ?_⟩
  · simp only [List.mem_cons, List.not_mem_nil, or_false] at hi
    rcases hi with rfl | rfl | rfl | rfl <;> exact accept_unconfigured hb hd ..
  · simp only [exec, execTranslate, translateBank_unconfigured hk]

/-- Settles O11: the host's operation is `State.hardwareReset`, whose history gains an entry exactly where a
transaction is outstanding (R311). -/
theorem hardwareReset : Obligations.HardwareReset := by
  unfold Obligations.HardwareReset
  intro s rest hi
  rw [step_hostStep hi, hostStep, State.hardwareReset]
  cases s.outstanding with
  | none => rfl
  | some req => rfl

/-- Settles O25: the two phases issue these rows, and both read the slice. -/
theorem unwrittenImageRefused : Obligations.UnwrittenImageRefused := by
  unfold Obligations.UnwrittenImageRefused
  intro s a ha hs
  have hprg : prgAddr s.cfg = a := BitVec.eq_of_toNat_eq ((prgAddr_toNat s.cfg).trans ha.symm)
  refine ⟨fun hp => exec_unwritten ?_ (.inl hp) hs, fun hp => exec_unwritten ?_ (.inr hp) hs⟩ <;>
    simp only [State.instrAt, hp, hprg]

end
